-- ==== Sys2Proof/Word.lean ====
section
/-! DEFINITION. Sys2Proof/Word.lean: the words of the unit's ports and the residues its registers hold. -/

namespace Sys2Proof

/-- A command word, one transaction of port `cmd` (spec/10_state.md R30, spec/30_encoding.md R50). -/
abbrev CmdWord := BitVec 32

/-- A response word, one transaction of port `rsp` (spec/10_state.md R30, spec/30_encoding.md R54). -/
abbrev RspWord := BitVec 32

/-- An output character code, one transaction of port `sym` (spec/10_state.md R30, spec/30_encoding.md R60). -/
abbrev SymCode := BitVec 8

/-- The data field of a response (spec/30_encoding.md R54), and the width of the status register. -/
abbrev Data := BitVec 16

/-- A residue, "an integer in [0, 25] representing one alphabet symbol" (spec/00_scope.md R5). -/
abbrev Residue := Fin 26

end Sys2Proof
end

