-- ==== Sys2Proof/Syntax.lean ====
section
/-! DEFINITION. Sys2Proof/Syntax.lean: the eleven commands of spec/30_encoding.md R52, operands as R53 reads them. -/

namespace Sys2Proof

/-- One constructor per row of spec/opcode_table.json. Operands are the integers of R53 ("unbounded mathematical
integers", spec/00_scope.md R4): `k`, indices, character code and register number unsigned, loaded values signed. -/
inductive Instr where
  /-- `SETKD k` (spec/40_key_load.md R70) -/
  | setkd (k : Nat)
  /-- `SETLD k` (spec/40_key_load.md R71) -/
  | setld (k : Nat)
  /-- `LDK row, col, v` (spec/40_key_load.md R72) -/
  | ldk (row col : Nat) (v : Int)
  /-- `LDL row, v` (spec/40_key_load.md R73) -/
  | ldl (row : Nat) (v : Int)
  /-- `CHK` (spec/41_modular_matrix.md R90) -/
  | chk
  /-- `INV` (spec/41_modular_matrix.md R91) -/
  | inv
  /-- `ENCB` (spec/42_hill_engine.md R110) -/
  | encb
  /-- `DECB` (spec/42_hill_engine.md R111) -/
  | decb
  /-- `PUT c` (spec/42_hill_engine.md R112) -/
  | put (c : Nat)
  /-- `END` (spec/42_hill_engine.md R113); `end` is a word of Lean -/
  | endText
  /-- `RD reg, row, col` (spec/43_register_read.md R130) -/
  | rd (reg row col : Nat)
  deriving DecidableEq, Repr

end Sys2Proof
end

