-- ==== Sys2Proof/WellFormed.lean ====
section
/-! DEFINITION. Sys2Proof/WellFormed.lean: the operands that the fields of a command word can hold
(spec/30_encoding.md R50, R53). A well-formed command may still be refused by a unit: the ranges that depend on
`KMAX`, on the mode or on the register map are tests of the machine (spec/60_exceptions.md R145). -/

namespace Sys2Proof

/-- A 4-bit index field (`row`, `col`). -/
def fitsIndex (n : Nat) : Bool := decide (n < 16)

/-- The 16-bit immediate read unsigned. -/
def fitsUnsigned (n : Nat) : Bool := decide (n < 65536)

/-- The 16-bit immediate read signed, "−32768 to 32767". -/
def fitsSigned (v : Int) : Bool := decide (-32768 ≤ v) && decide (v ≤ 32767)

/-- Every operand fits the field that carries it. -/
def Instr.wf : Instr → Bool
  | .setkd k => fitsUnsigned k
  | .setld k => fitsUnsigned k
  | .ldk row col v => fitsIndex row && fitsIndex col && fitsSigned v
  | .ldl row v => fitsIndex row && fitsSigned v
  | .chk => true
  | .inv => true
  | .encb => true
  | .decb => true
  | .put c => fitsUnsigned c
  | .endText => true
  | .rd reg row col => fitsUnsigned reg && fitsIndex row && fitsIndex col

end Sys2Proof
end

