-- ==== Sys2Proof/Decode.lean ====
section
/-! DEFINITION. Sys2Proof/Decode.lean: command words to commands and back, from the match and mask table of
spec/30_encoding.md R52. Decoding is total: a word names one command or is rejected by name (R51, R55). -/

namespace Sys2Proof

/-- The four fields of a command word (spec/30_encoding.md R50). -/
structure Fields where
  op : BitVec 8
  row : BitVec 4
  col : BitVec 4
  imm16 : BitVec 16
  deriving DecidableEq, Repr

/-- One row of the opcode map of spec/30_encoding.md R52, with the operands of R53. -/
structure OpcodeRow where
  mnemonic : String
  op : BitVec 8
  matchBits : CmdWord
  mask : CmdWord
  build : Fields → Instr

/-- Why a word decodes to no command. -/
inductive Reject where
  /-- its `op` is none of the eleven (spec/30_encoding.md R55 case 1) -/
  | unassignedOpcode (op : BitVec 8)
  /-- its `op` is one of the eleven and an unused field is not zero (R55 case 2) -/
  | unusedFieldNotZero (op : BitVec 8)
  deriving DecidableEq, Repr

/-- `op = w[31:24]`. -/
def opField (w : CmdWord) : BitVec 8 := w.extractLsb' 24 8

/-- `row = w[23:20]`, `col = w[19:16]`, `imm16 = w[15:0]`. -/
def fields (w : CmdWord) : Fields :=
  ⟨opField w, w.extractLsb' 20 4, w.extractLsb' 16 4, w.extractLsb' 0 16⟩

/-- `word = op * 2^24 + row * 2^20 + col * 2^16 + imm16` (spec/30_encoding.md R50), as a concatenation. -/
def assembleFields (f : Fields) : CmdWord := f.op ++ (f.row ++ (f.col ++ f.imm16))

/-- `sext_16` of spec/00_scope.md R4: `v` if `v < 32768`, else `v - 65536`. -/
def sext16 (v : BitVec 16) : Int := if v.toNat < 32768 then (v.toNat : Int) else (v.toNat : Int) - 65536

/-- The opcode map of spec/30_encoding.md R52, row for row. -/
def opcodeTable : List OpcodeRow :=
  [ ⟨"SETKD", 0x10, 0x10000000, 0xFFFF0000, fun f => .setkd f.imm16.toNat⟩,
    ⟨"SETLD", 0x11, 0x11000000, 0xFFFF0000, fun f => .setld f.imm16.toNat⟩,
    ⟨"LDK",   0x12, 0x12000000, 0xFF000000, fun f => .ldk f.row.toNat f.col.toNat (sext16 f.imm16)⟩,
    ⟨"LDL",   0x13, 0x13000000, 0xFF0F0000, fun f => .ldl f.row.toNat (sext16 f.imm16)⟩,
    ⟨"CHK",   0x20, 0x20000000, 0xFFFFFFFF, fun _ => .chk⟩,
    ⟨"INV",   0x21, 0x21000000, 0xFFFFFFFF, fun _ => .inv⟩,
    ⟨"ENCB",  0x30, 0x30000000, 0xFFFFFFFF, fun _ => .encb⟩,
    ⟨"DECB",  0x31, 0x31000000, 0xFFFFFFFF, fun _ => .decb⟩,
    ⟨"PUT",   0x32, 0x32000000, 0xFFFF0000, fun f => .put f.imm16.toNat⟩,
    ⟨"END",   0x33, 0x33000000, 0xFFFFFFFF, fun _ => .endText⟩,
    ⟨"RD",    0x40, 0x40000000, 0xFF000000, fun f => .rd f.imm16.toNat f.row.toNat f.col.toNat⟩ ]

/-- `(w AND mask) = match` (spec/30_encoding.md R51). -/
def OpcodeRow.accepts (r : OpcodeRow) (w : CmdWord) : Bool := w &&& r.mask == r.matchBits

/-- `op` is one of the eleven opcodes of spec/30_encoding.md R52. -/
def assignedOpcode (op : BitVec 8) : Bool := opcodeTable.any fun r => r.op == op

/-- The name of the rejection of a word that matches no row. -/
def rejectWord (w : CmdWord) : Reject :=
  if assignedOpcode (opField w) then .unusedFieldNotZero (opField w) else .unassignedOpcode (opField w)

/-- The command of the first (and only) row that matches (spec/30_encoding.md R51). -/
def decode (w : CmdWord) : Except Reject Instr :=
  match opcodeTable.find? (fun r => r.accepts w) with
  | some r => .ok (r.build (fields w))
  | none => .error (rejectWord w)

/-- The opcode of a command (spec/30_encoding.md R52). -/
def Instr.opcode : Instr → BitVec 8
  | .setkd _ => 0x10
  | .setld _ => 0x11
  | .ldk _ _ _ => 0x12
  | .ldl _ _ => 0x13
  | .chk => 0x20
  | .inv => 0x21
  | .encb => 0x30
  | .decb => 0x31
  | .put _ => 0x32
  | .endText => 0x33
  | .rd _ _ _ => 0x40

/-- The fields that carry a command's operands; a field the command does not use is zero. -/
def Instr.toFields : Instr → Fields
  | .setkd k => ⟨0x10, 0, 0, BitVec.ofNat 16 k⟩
  | .setld k => ⟨0x11, 0, 0, BitVec.ofNat 16 k⟩
  | .ldk row col v => ⟨0x12, BitVec.ofNat 4 row, BitVec.ofNat 4 col, BitVec.ofInt 16 v⟩
  | .ldl row v => ⟨0x13, BitVec.ofNat 4 row, 0, BitVec.ofInt 16 v⟩
  | .chk => ⟨0x20, 0, 0, 0⟩
  | .inv => ⟨0x21, 0, 0, 0⟩
  | .encb => ⟨0x30, 0, 0, 0⟩
  | .decb => ⟨0x31, 0, 0, 0⟩
  | .put c => ⟨0x32, 0, 0, BitVec.ofNat 16 c⟩
  | .endText => ⟨0x33, 0, 0, 0⟩
  | .rd reg row col => ⟨0x40, BitVec.ofNat 4 row, BitVec.ofNat 4 col, BitVec.ofNat 16 reg⟩

/-- The word of a well-formed command (spec/30_encoding.md R50, R52, R58). -/
def encode (i : Instr) : CmdWord := assembleFields i.toFields

/-- The command the decoder reads from the `nbits` low bits of `w`, every bit above them zero. A command is one
32-bit word whose bit 31 is its most significant (spec/20_memory.md R41), so no byte order arises (DEDUCED, log 11, safe). -/
def decodeTableWord (nbits w : Nat) : Option Instr := (decode (BitVec.ofNat 32 (w % 2 ^ nbits))).toOption

end Sys2Proof
end

