-- ==== Sys2Proof/Machine/Arith.lean ====
section
/-! DEFINITION. Sys2Proof/Machine/Arith.lean: the pure functions of the inverse unit (spec/41_modular_matrix.md
section 1), on exact integers as R88 asks. A `k` by `k` matrix is a dimension and a function of row and column. -/

namespace Sys2Proof.Machine

/-- An integer matrix: entry by row and column, numbered from 0 (spec/00_scope.md R7). -/
abbrev IntMatrix := Nat → Nat → Int

/-- `mod26(x)`, floor-modulo: the `r` in 0 to 25 with `x - r` divisible by 26 (spec/00_scope.md R5). -/
def mod26 (x : Int) : Residue := Fin.ofNat 26 (x % 26).toNat

/-- A residue as the integer it stands for. -/
def resVal (r : Residue) : Int := (r.val : Int)

/-- The sum of `f j` for `j` from 0 to `k - 1` (spec/00_scope.md R7). -/
def sumTo : Nat → (Nat → Int) → Int
  | 0, _ => 0
  | k + 1, f => sumTo k f + f k

/-- `(-1)^n`. -/
def altSign (n : Nat) : Int := if n % 2 = 0 then 1 else -1

/-- `minor(M, r, c)`: row `r` and column `c` deleted, the order kept (spec/41_modular_matrix.md R81). -/
def minor (M : IntMatrix) (r c : Nat) : IntMatrix :=
  fun i j => M (if i < r then i else i + 1) (if j < c then j else j + 1)

/-- `det(M)` by cofactor expansion along row 0 (spec/41_modular_matrix.md R82). -/
def det : Nat → IntMatrix → Int
  | 0, _ => 1
  | k + 1, M => sumTo (k + 1) fun j => altSign j * M 0 j * det k (minor M 0 j)

/-- `adj(M)[i][j]`, from the minor that deletes row `j` and column `i` (spec/41_modular_matrix.md R83). -/
def adj (k : Nat) (M : IntMatrix) : IntMatrix :=
  fun i j => altSign (i + j) * det (k - 1) (minor M j i)

/-- `gcd(d, 26) = 1`: `d` is a unit modulo 26 (spec/41_modular_matrix.md R80). -/
def isUnit26 (d : Residue) : Bool := Nat.gcd d.val 26 == 1

/-- `inv26(d)`: the `x` from 1 to 25 with `mod26(d * x) = 1` (spec/41_modular_matrix.md R84). R84 does not define it
for a `d` that is no unit; no rule takes it there, and the 0 given there is never read (DESIGN CHOICE, log 8, safe). -/
def inv26 (d : Residue) : Residue :=
  ((List.finRange 26).find? fun x => mod26 (resVal d * resVal x) == 1).getD 0

/-- `isInvertibleMod26(M)` (spec/41_modular_matrix.md R85). -/
def isInvertibleMod26 (k : Nat) (M : IntMatrix) : Bool := isUnit26 (mod26 (det k M))

/-- Entry `(i, j)` of the inverse: `mod26(inv26(d) * adj(M)[i][j])` (spec/41_modular_matrix.md R85). -/
def inverseEntry (k : Nat) (M : IntMatrix) (i j : Nat) : Residue :=
  mod26 (resVal (inv26 (mod26 (det k M))) * adj k M i j)

/-- `inverseMod26(M)`, `none` for `NotInvertible` (spec/41_modular_matrix.md R85). -/
def inverseMod26 (k : Nat) (M : IntMatrix) : Option (Nat → Nat → Residue) :=
  if isInvertibleMod26 k M then some (inverseEntry k M) else none

end Sys2Proof.Machine
end

