-- ==== Sys2Proof/Config.lean ====
section
/-! DEFINITION. Sys2Proof/Config.lean: what is fixed for every HILL26 unit, and the legal range of its one
parameter `KMAX` (spec/00_scope.md R3). The model has no free value: no rule of spec/ leaves a result undefined. -/

namespace Sys2Proof.Config

/-- `N`, the alphabet size and modulus of all arithmetic (spec/00_scope.md R3). -/
def alphabetSize : Nat := 26

/-- The largest value the parameter `KMAX` may have: four index bits (spec/00_scope.md R3). -/
def kmaxLimit : Nat := 16

/-- `KMAX` is "an integer with 1 <= KMAX <= 16" (spec/00_scope.md R3). -/
def legalKmax (k : Nat) : Bool := decide (1 ≤ k) && decide (k ≤ kmaxLimit)

end Sys2Proof.Config
end

