-- ==== Sys2Proof/Machine/Params.lean ====
section
/-! DEFINITION. Sys2Proof/Machine/Params.lean: the value of the parameter `KMAX` in `State.reset`. -/

namespace Sys2Proof.Machine

/-- `KMAX` of the unit that `State.reset` describes. DESIGN CHOICE (log 1): spec/00_scope.md R3 leaves `KMAX` open,
1 to 16. `State.resetFor` gives the reset state for every value, and no statement rests on this one. -/
def resetKmax : Nat := 16

end Sys2Proof.Machine
end

