-- ==== Sys2Proof/Machine/State.lean ====
section
/-! DEFINITION. Sys2Proof/Machine/State.lean: the architectural state of spec/10_state.md R10, the two port streams,
the reset values of R27, and the reasons a step can stop. -/

namespace Sys2Proof.Machine

/-- A vector register file (`SV`, `LN`, `IB`). Sixteen cells whatever `KMAX` is; the cells at `KMAX` and above do not
exist in the unit, hold 0 and are never reached (log 6). -/
abbrev Vec := Vector Residue 16

/-- A matrix register file (`KM`, `KI`), row by row (log 6). -/
abbrev Mat := Vector Vec 16

/-- The operating mode (spec/10_state.md R19). "The value 3 never occurs" (DEDUCED, log 12, safe). -/
inductive Mode where
  | idle
  | enc
  | dec
  deriving DecidableEq, Repr

/-- The error codes the unit produces (spec/60_exceptions.md R141). Code 4 and codes 6 to 15 are never produced, so
the type has five values (spec/93_implementation_defined.md U7; DEDUCED, log 12, safe). -/
inductive ErrCode where
  | success
  | invalidSymbol
  | notInvertible
  | dimensionMismatch
  | illegalCommand
  deriving DecidableEq, Repr

/-- What the host sends next: a command word, or reset (spec/10_state.md R30, spec/70_reset_and_hazards.md R176). -/
inductive HostMove where
  | word (w : CmdWord)
  | rst
  deriving DecidableEq, Repr

/-- One output transaction: a symbol on port `sym` or a response on port `rsp` (spec/10_state.md R30). -/
inductive PortOut where
  | symbol (c : SymCode)
  | response (w : RspWord)
  deriving DecidableEq, Repr

/-- Reasons a step stops with a fault. There is none: every error of the unit is answered in a response and the unit
goes on (spec/60_exceptions.md R140), and every word is answered (spec/30_encoding.md R51, R54). Safe. -/
inductive Fault where
  deriving DecidableEq, Repr

/-- Reasons a step is refused. -/
inductive Refusal where
  /-- Raised by an arm of `exec` for an instruction that has no meaning yet; no arm raises it. Safe. -/
  | notModelled (mnemonic : String)
  deriving DecidableEq, Repr

/-- The state of the unit (spec/10_state.md R10) with its parameter and its two port streams. Dimensions and the count
are numbers whose ranges are the invariants of R25, not types (DESIGN CHOICE, log 7, safe). -/
structure State where
  /-- `CAP`, the parameter `KMAX` (spec/10_state.md R24). Configuration: no step changes it (log 1). -/
  cap : Nat
  /-- `KM`, the key matrix (R11). -/
  km : Mat
  /-- `SV`, the shift vector (R12). -/
  sv : Vec
  /-- `KDIM`, the key dimension (R13). -/
  kdim : Nat
  /-- `LDIM`, the declared dimension of the shift vector (R14). -/
  ldim : Nat
  /-- `KI`, the inverse key matrix (R15). -/
  ki : Mat
  /-- `LN`, the transformed shift vector (R16). -/
  ln : Vec
  /-- `IB`, the block being assembled (R17). -/
  ib : Vec
  /-- `CNT`, the number of residues in `IB` (R18). -/
  cnt : Nat
  /-- `MODE` (R19). -/
  mode : Mode
  /-- `ERR`, the result of the last command other than `RD` (R20). -/
  err : ErrCode
  /-- `DET`, the determinant modulo 26 (R21). -/
  det : Residue
  /-- `DETV`: `DET` and `UNIT` are current (R21). -/
  detv : Bool
  /-- `UNIT`: `gcd(DET, 26) = 1` (R21). -/
  unit : Bool
  /-- `DINV`, the inverse of `DET` (R22). -/
  dinv : Residue
  /-- `KIV`: `KI` and `DINV` are current (R22). -/
  kiv : Bool
  /-- The MODEL's own (log 2): what the host has still to deliver, oldest first. -/
  cmd : List HostMove
  /-- The MODEL's own (log 2): what the unit has transferred so far on both output ports, oldest first. -/
  out : List PortOut
  deriving DecidableEq, Repr

/-- Every element of a vector register file at 0. -/
def zeroVec : Vec := Vector.replicate 16 0

/-- Every element of a matrix register file at 0. -/
def zeroMat : Mat := Vector.replicate 16 zeroVec

/-- The state after reset of a unit whose parameter is `kmax` (spec/10_state.md R27). -/
def State.resetFor (kmax : Nat) : State where
  cap := kmax
  km := zeroMat
  sv := zeroVec
  kdim := 1
  ldim := 1
  ki := zeroMat
  ln := zeroVec
  ib := zeroVec
  cnt := 0
  mode := .idle
  err := .success
  det := 0
  detv := false
  unit := false
  dinv := 0
  kiv := false
  cmd := []
  out := []

/-- The machine right after reset, nothing sent and nothing transferred (spec/10_state.md R27; `KMAX`: log 1). -/
def State.reset : State := State.resetFor resetKmax

end Sys2Proof.Machine
end

