-- ==== Sys2Proof/Machine/Hill.lean ====
section
/-! DEFINITION. Sys2Proof/Machine/Hill.lean: the alphabet codec (spec/42_hill_engine.md R101, R102) and the functions
of `IT` from text to text (R103). The machine's block computations are `encblock` and `decblock`. -/

namespace Sys2Proof.Machine

/-- The character code of the letter a (spec/00_scope.md R3). -/
def letterA : Nat := 0x61

/-- The character code of the letter z (spec/00_scope.md R3). -/
def letterZ : Nat := 0x7A

/-- The residue of the letter z, the padding (spec/42_hill_engine.md R103, R113). -/
def padResidue : Residue := 25

/-- `toResidue(c)`, `none` for `InvalidSymbol` (spec/42_hill_engine.md R101). -/
def toResidue (c : Nat) : Option Residue :=
  if c < letterA ∨ letterZ < c then none else some (Fin.ofNat 26 (c - letterA))

/-- `toSymbol(r) = 0x61 + r` (spec/42_hill_engine.md R102, spec/30_encoding.md R60). -/
def toSymbol (r : Residue) : SymCode := BitVec.ofNat 8 (letterA + r.val)

/-- `encblock(K, L, v)`: entry `i` is `mod26(sum_j K[i][j]*v[j] + L[i])` (spec/42_hill_engine.md R103). -/
def encblock (k : Nat) (K : Nat → Nat → Residue) (L v : Nat → Residue) : List Residue :=
  (List.range k).map fun i => mod26 (sumTo k (fun j => resVal (K i j) * resVal (v j)) + resVal (L i))

/-- `decblock(Ki, Ln, c)`: entry `i` is `mod26(sum_j Ki[i][j]*c[j] - Ln[i])` (spec/42_hill_engine.md R103). -/
def decblock (k : Nat) (Ki : Nat → Nat → Residue) (Ln c : Nat → Residue) : List Residue :=
  (List.range k).map fun i => mod26 (sumTo k (fun j => resVal (Ki i j) * resVal (c j)) - resVal (Ln i))

/-- `Lnew`, entry `i`: `mod26(sum_j Ki[i][j]*L[j])` (spec/42_hill_engine.md R103, R111). -/
def transformedShift (k : Nat) (Ki : Nat → Nat → Residue) (L : Nat → Residue) (i : Nat) : Residue :=
  mod26 (sumTo k fun j => resVal (Ki i j) * resVal (L j))

/-- How many letters `'z'` make a text of length `n` a multiple of `k`: the fewest (spec/42_hill_engine.md R103). -/
def padLength (k n : Nat) : Nat := if n % k = 0 then 0 else k - n % k

/-- `pad(k, t)` (spec/42_hill_engine.md R103). -/
def pad (k : Nat) (t : List Residue) : List Residue := t ++ List.replicate (padLength k t.length) padResidue

/-- `blocks(k, t)`: consecutive groups of `k`, first group first (spec/42_hill_engine.md R103). -/
def blocks (k : Nat) (t : List Residue) : List (List Residue) :=
  (List.range (t.length / k)).map fun b => (t.drop (b * k)).take k

/-- A block or a shift vector as a column: entry `j` is its `j`-th residue. -/
def column (v : List Residue) : Nat → Residue := fun j => v.getD j 0

/-- `encrypt(K, L, t)` (spec/42_hill_engine.md R103). The dimension of the shift vector is its length: "A shift vector
whose dimension is not `k` fails either function with `DimensionMismatch`". There is no test of the key. -/
def encrypt (k : Nat) (K : Nat → Nat → Residue) (L t : List Residue) : Except ErrCode (List Residue) :=
  if L.length = k then .ok ((blocks k (pad k t)).flatMap fun v => encblock k K (column L) (column v))
  else .error .dimensionMismatch

/-- A matrix of residues read as integers. -/
def intMatrix (K : Nat → Nat → Residue) : IntMatrix := fun i j => resVal (K i j)

/-- `decrypt(K, L, t)` (spec/42_hill_engine.md R103): the inverse first, then the shift vector's dimension, then the
length of the text (the order of spec/60_exceptions.md R145). -/
def decrypt (k : Nat) (K : Nat → Nat → Residue) (L t : List Residue) : Except ErrCode (List Residue) :=
  match inverseMod26 k (intMatrix K) with
  | none => .error .notInvertible
  | some Ki =>
    if L.length ≠ k then .error .dimensionMismatch
    else if t.length % k ≠ 0 then .error .dimensionMismatch
    else .ok ((blocks k t).flatMap fun c => decblock k Ki (transformedShift k Ki (column L)) (column c))

end Sys2Proof.Machine
end

