-- ==== Sys2Proof/Machine/Ops.lean ====
section
/-! DEFINITION. Sys2Proof/Machine/Ops.lean: the operations the commands share: the register files, the response, the
symbols, taking an error (R144), refusing a command (R146), ending a block (R107), and reset (R170). -/

namespace Sys2Proof.Machine

/-! ### Register files -/

/-- The sixteen cells `f 0`, ..., `f 15`. -/
def tabulate {α : Type} (f : Nat → α) : Vector α 16 := ⟨((List.range 16).map f).toArray, by simp⟩

/-- Read of `X[i]` (spec/00_scope.md R6). DESIGN CHOICE (log 7, safe): 0 beyond the sixteen cells, where no command
reads. -/
def Vec.get (v : Vec) (i : Nat) : Residue := v.getD i 0

/-- `X[i] <- r` (spec/00_scope.md R6). DESIGN CHOICE (log 7, safe): no effect beyond the sixteen cells, where no
command writes. -/
def Vec.set (v : Vec) (i : Nat) (r : Residue) : Vec := v.setIfInBounds i r

/-- `X[i] <- f i` for `lo <= i < hi`, the other elements kept. -/
def Vec.fill (v : Vec) (lo hi : Nat) (f : Nat → Residue) : Vec :=
  tabulate fun i => if lo ≤ i ∧ i < hi then f i else Vec.get v i

/-- Read of `X[i][j]` (spec/00_scope.md R6). -/
def Mat.get (m : Mat) (i j : Nat) : Residue := Vec.get (m.getD i zeroVec) j

/-- `X[i][j] <- r` (spec/00_scope.md R6). -/
def Mat.set (m : Mat) (i j : Nat) (r : Residue) : Mat := m.setIfInBounds i (Vec.set (m.getD i zeroVec) j r)

/-- `X[i][j] <- f i j` for `i, j < k`, the other elements kept (spec/41_modular_matrix.md R86). -/
def Mat.fill (m : Mat) (k : Nat) (f : Nat → Nat → Residue) : Mat :=
  tabulate fun i => tabulate fun j => if i < k ∧ j < k then f i j else Mat.get m i j

/-- `K()`, the `KDIM` by `KDIM` integer matrix of the key; only entries below `KDIM` are read (spec/00_scope.md R6). -/
def keyMatrix (s : State) : IntMatrix := intMatrix (Mat.get s.km)

/-- The shift vector the host has declared: the `LDIM` first elements of `SV` (spec/10_state.md R12, R14). -/
def shiftVector (s : State) : List Residue := (List.range s.ldim).map (Vec.get s.sv)

/-! ### Responses and symbols -/

/-- The four bits of an error code (spec/60_exceptions.md R141). -/
def ErrCode.bits : ErrCode → BitVec 4
  | .success => 0
  | .invalidSymbol => 1
  | .notInvertible => 2
  | .dimensionMismatch => 3
  | .illegalCommand => 5

/-- The two bits of the mode (spec/10_state.md R19). -/
def Mode.bits : Mode → BitVec 2
  | .idle => 0
  | .enc => 1
  | .dec => 2

/-- `response = err * 2^28 + data`, bits 27:16 zero (spec/30_encoding.md R54). -/
def responseWord (e : ErrCode) (d : Data) : RspWord := e.bits ++ ((0 : BitVec 12) ++ d)

/-- `respond(e, d)`: the response word goes out and the command is over (spec/00_scope.md R6). -/
def respond (e : ErrCode) (d : Data) (s : State) : State :=
  { s with out := s.out ++ [.response (responseWord e d)] }

/-- `ERR <- e; respond(e, d)`, the end of every command but `RD` (spec/10_state.md R20, spec/60_exceptions.md R140). -/
def answer (e : ErrCode) (d : Data) (s : State) : State := respond e d { s with err := e }

/-- `ERR <- 0; respond(0, n)`. -/
def succeed (n : Nat) (s : State) : State := answer .success (BitVec.ofNat 16 n) s

/-- `emit(toSymbol(r))` for each residue of a list, in order (spec/42_hill_engine.md R107). -/
def emitAll (rs : List Residue) (s : State) : State :=
  { s with out := s.out ++ rs.map fun r => .symbol (toSymbol r) }

/-! ### Errors -/

/-- `raise X` in `INV`, `ENCB`, `DECB`: `ERR <- code(X); respond(code(X), 0)` (spec/60_exceptions.md R144). -/
def raise (e : ErrCode) (s : State) : State := answer e 0 s

/-- `raise X` in `PUT`, `END`: the session is over as well, `MODE <- IDLE; CNT <- 0` (spec/60_exceptions.md R144).
There is no return from an error: the unit takes the next command (R151). -/
def raiseInSession (e : ErrCode) (s : State) : State := raise e { s with mode := .idle, cnt := 0 }

/-- The opcode of `RD`, whose words never write `ERR` (spec/60_exceptions.md R146). -/
def rdOpcode : BitVec 8 := 0x40

/-- `refuse()`: `if op != 0x40 then ERR <- 5; respond(5, 0)`, nothing else (spec/60_exceptions.md R146). -/
def refuse (op : BitVec 8) (s : State) : State :=
  respond .illegalCommand 0 (if op = rdOpcode then s else { s with err := .illegalCommand })

/-! ### Blocks -/

/-- `enc_out` (spec/42_hill_engine.md R105). -/
def encOut (s : State) : List Residue := encblock s.kdim (Mat.get s.km) (Vec.get s.sv) (Vec.get s.ib)

/-- `dec_out` (spec/42_hill_engine.md R106). -/
def decOut (s : State) : List Residue := decblock s.kdim (Mat.get s.ki) (Vec.get s.ln) (Vec.get s.ib)

/-- The block that `flush_block` emits in the present mode (spec/42_hill_engine.md R107). -/
def blockOut (s : State) : List Residue := if s.mode = .enc then encOut s else decOut s

/-- `flush_block()`: the block's symbols go out, element 0 first, and `CNT <- 0` (spec/42_hill_engine.md R107). -/
def flushBlock (s : State) : State := { emitAll (blockOut s) s with cnt := 0 }

/-! ### Moves of the host that are no command -/

/-- Reset between two commands: every piece of state to its reset value, no symbol, no response
(spec/70_reset_and_hazards.md R170, R171). The parameter, what was already sent and what the host has still to
deliver are no state of the unit and stay (log 4). -/
def applyReset (s : State) : State := { State.resetFor s.cap with cmd := s.cmd, out := s.out }

/-- A word that decodes to no command is refused (spec/30_encoding.md R55 cases 1 and 2, spec/60_exceptions.md R145). -/
def refuseWord (w : CmdWord) (s : State) : State := refuse (opField w) s

/-- Holding the state when the host has sent nothing (spec/60_exceptions.md R165, log 3). -/
def hold (s : State) : State := s

/-- The symbols among what was transferred, in emission order (spec/42_hill_engine.md R104). -/
def symbolsOf (out : List PortOut) : List SymCode :=
  out.filterMap fun o => match o with | .symbol c => some c | .response _ => none

/-- The responses among what was transferred, in command order (spec/10_state.md R30). -/
def responsesOf (out : List PortOut) : List RspWord :=
  out.filterMap fun o => match o with | .symbol _ => none | .response w => some w

end Sys2Proof.Machine
end

