-- ==== Sys2Proof/Machine/Flags.lean ====
section
/-! DEFINITION. Sys2Proof/Machine/Flags.lean: the flags `DETV`, `UNIT`, `KIV` (spec/10_state.md R32) and the two steps
that compute them (spec/41_modular_matrix.md R86, R87). -/

namespace Sys2Proof.Machine

/-- `DETV <- 0; UNIT <- 0; KIV <- 0` (spec/40_key_load.md R70, R72). -/
def clearKeyFlags (s : State) : State := { s with detv := false, unit := false, kiv := false }

/-- `mod26(det(K()))` (spec/10_state.md R21). -/
def keyDet (s : State) : Residue := mod26 (det s.kdim (keyMatrix s))

/-- `compute_det()` (spec/41_modular_matrix.md R87). -/
def computeDet (s : State) : State := { s with det := keyDet s, detv := true, unit := isUnit26 (keyDet s) }

/-- `mod26(DINV * adj(K())[i][j])` with `DINV = inv26(DET)` (spec/41_modular_matrix.md R86). -/
def keyInverse (s : State) (i j : Nat) : Residue :=
  mod26 (resVal (inv26 (keyDet s)) * adj s.kdim (keyMatrix s) i j)

/-- The writes of `compute_inverse()` when `UNIT = 1` after `compute_det()` (spec/41_modular_matrix.md R86). -/
def storeInverse (s : State) : State :=
  { s with dinv := inv26 (keyDet s), ki := Mat.fill s.ki s.kdim (keyInverse s), kiv := true }

/-- `compute_inverse()` (spec/41_modular_matrix.md R86). It "failed" exactly when `UNIT = 0` afterwards, the test R86
makes, so the caller reads the report there. -/
def computeInverse (s : State) : State :=
  if (computeDet s).unit then storeInverse (computeDet s) else { computeDet s with kiv := false }

/-- The data of `CHK` and `INV`: `UNIT + 256 * DET` (spec/30_encoding.md R54). -/
def detData (s : State) : Nat := s.unit.toNat + 256 * s.det.val

end Sys2Proof.Machine
end

