-- ==== Sys2Proof/Machine/Operands.lean ====
section
/-! DEFINITION. Sys2Proof/Machine/Operands.lean: operand ranges (spec/30_encoding.md R53), the status register
(spec/10_state.md R23) and the register map of `RD` (spec/43_register_read.md R131). -/

namespace Sys2Proof.Machine

/-- The legal range of the operand `k` of `SETKD` and `SETLD`: `1 <= k <= KMAX` (spec/30_encoding.md R53). -/
def legalDim (k : Nat) (s : State) : Bool := decide (1 ≤ k) && decide (k ≤ s.cap)

/-- The legal range of an index of `LDK`, `LDL`: below `KMAX` (spec/30_encoding.md R53). -/
def legalIndex (n : Nat) (s : State) : Bool := decide (n < s.cap)

/-- `SR`, from bit 15 down: `ERR`, `CNT`, three zero bits, `KIV`, `UNIT`, `DETV`, `MODE` (spec/10_state.md R23). -/
def statusReg (s : State) : Data :=
  s.err.bits ++ (BitVec.ofNat 4 s.cnt ++ ((0 : BitVec 3) ++ (BitVec.ofBool s.kiv ++
    (BitVec.ofBool s.unit ++ (BitVec.ofBool s.detv ++ s.mode.bits)))))

/-- The registers that have a number (spec/43_register_read.md R131). -/
inductive RegName where
  | sr | kdim | ldim | det | dinv | cap | km | sv | ki | ln
  deriving DecidableEq, Repr

/-- The register numbers of spec/43_register_read.md R131. "Numbers not listed are illegal." -/
def regName : Nat → Option RegName
  | 0x0000 => some .sr
  | 0x0001 => some .kdim
  | 0x0002 => some .ldim
  | 0x0003 => some .det
  | 0x0004 => some .dinv
  | 0x0005 => some .cap
  | 0x0010 => some .km
  | 0x0011 => some .sv
  | 0x0012 => some .ki
  | 0x0013 => some .ln
  | _ => none

/-- The "legal when" column of spec/43_register_read.md R131. -/
def readable (r : RegName) (row col : Nat) (s : State) : Bool :=
  match r with
  | .sr => row == 0 && col == 0
  | .kdim => row == 0 && col == 0
  | .ldim => row == 0 && col == 0
  | .det => row == 0 && col == 0 && s.detv
  | .dinv => row == 0 && col == 0 && s.kiv
  | .cap => row == 0 && col == 0
  | .km => decide (row < s.cap) && decide (col < s.cap)
  | .sv => decide (row < s.cap) && col == 0
  | .ki => s.kiv && decide (row < s.kdim) && decide (col < s.kdim)
  | .ln => s.mode == .dec && decide (row < s.kdim) && col == 0

/-- The "value in data" column of spec/43_register_read.md R131, zero-extended (spec/30_encoding.md R54). -/
def regValue (r : RegName) (row col : Nat) (s : State) : Data :=
  match r with
  | .sr => statusReg s
  | .kdim => BitVec.ofNat 16 s.kdim
  | .ldim => BitVec.ofNat 16 s.ldim
  | .det => BitVec.ofNat 16 s.det.val
  | .dinv => BitVec.ofNat 16 s.dinv.val
  | .cap => BitVec.ofNat 16 s.cap
  | .km => BitVec.ofNat 16 (Mat.get s.km row col).val
  | .sv => BitVec.ofNat 16 (Vec.get s.sv row).val
  | .ki => BitVec.ofNat 16 (Mat.get s.ki row col).val
  | .ln => BitVec.ofNat 16 (Vec.get s.ln row).val

/-- The value `RD` answers, `none` where the read is illegal (spec/43_register_read.md R130, R131). -/
def readReg (reg row col : Nat) (s : State) : Option Data :=
  match regName reg with
  | some r => if readable r row col s then some (regValue r row col s) else none
  | none => none

end Sys2Proof.Machine
end

