-- ==== Sys2Proof/Machine/KeyLoad.lean ====
section
/-! DEFINITION. Sys2Proof/Machine/KeyLoad.lean: `SETKD`, `SETLD`, `LDK`, `LDL` (spec/40_key_load.md). -/

namespace Sys2Proof.Machine

/-- `SETKD k` (spec/40_key_load.md R70). -/
def execSetkd (k : Nat) (s : State) : Host.Outcome State Fault Refusal :=
  if s.mode ≠ .idle then .next (refuse 0x10 s)
  else if legalDim k s then .next (succeed k (clearKeyFlags { s with kdim := k }))
  else .next (refuse 0x10 s)

/-- `SETLD k` (spec/40_key_load.md R71). -/
def execSetld (k : Nat) (s : State) : Host.Outcome State Fault Refusal :=
  if s.mode ≠ .idle then .next (refuse 0x11 s)
  else if legalDim k s then .next (succeed k { s with ldim := k })
  else .next (refuse 0x11 s)

/-- `LDK row, col, v` (spec/40_key_load.md R72). -/
def execLdk (row col : Nat) (v : Int) (s : State) : Host.Outcome State Fault Refusal :=
  if s.mode ≠ .idle then .next (refuse 0x12 s)
  else if legalIndex row s && legalIndex col s then
    .next (succeed (mod26 v).val (clearKeyFlags { s with km := Mat.set s.km row col (mod26 v) }))
  else .next (refuse 0x12 s)

/-- `LDL row, v` (spec/40_key_load.md R73). -/
def execLdl (row : Nat) (v : Int) (s : State) : Host.Outcome State Fault Refusal :=
  if s.mode ≠ .idle then .next (refuse 0x13 s)
  else if legalIndex row s then .next (succeed (mod26 v).val { s with sv := Vec.set s.sv row (mod26 v) })
  else .next (refuse 0x13 s)

end Sys2Proof.Machine
end

