-- ==== Sys2Proof/Machine/MatrixUnit.lean ====
section
/-! DEFINITION. Sys2Proof/Machine/MatrixUnit.lean: `CHK`, `INV` (spec/41_modular_matrix.md section 3). -/

namespace Sys2Proof.Machine

/-- `CHK` (spec/41_modular_matrix.md R90). -/
def execChk (s : State) : Host.Outcome State Fault Refusal :=
  if s.mode ≠ .idle then .next (refuse 0x20 s)
  else .next (succeed (detData (computeDet s)) (computeDet s))

/-- `INV` (spec/41_modular_matrix.md R91). -/
def execInv (s : State) : Host.Outcome State Fault Refusal :=
  if s.mode ≠ .idle then .next (refuse 0x21 s)
  else if (computeInverse s).unit = false then .next (raise .notInvertible (computeInverse s))
  else .next (succeed (1 + 256 * (computeInverse s).det.val) (computeInverse s))

end Sys2Proof.Machine
end

