-- ==== Sys2Proof/Machine/RegisterRead.lean ====
section
/-! DEFINITION. Sys2Proof/Machine/RegisterRead.lean: `RD` (spec/43_register_read.md). -/

namespace Sys2Proof.Machine

/-- `RD reg, row, col` (spec/43_register_read.md R130): accepted in every mode, changes no state. -/
def execRd (reg row col : Nat) (s : State) : Host.Outcome State Fault Refusal :=
  match readReg reg row col s with
  | some v => .next (respond .success v s)
  | none => .next (refuse 0x40 s)

end Sys2Proof.Machine
end

