-- ==== Sys2Proof/Machine/Session.lean ====
section
/-! DEFINITION. Sys2Proof/Machine/Session.lean: `ENCB`, `DECB`, `PUT`, `END` (spec/42_hill_engine.md section 5). -/

namespace Sys2Proof.Machine

/-- `ENCB` (spec/42_hill_engine.md R110). The key is not tested: R110, and decision D13 of spec/92_eei_decisions.md. -/
def execEncb (s : State) : Host.Outcome State Fault Refusal :=
  if s.mode ≠ .idle then .next (refuse 0x30 s)
  else if s.ldim ≠ s.kdim then .next (raise .dimensionMismatch s)
  else .next (succeed s.kdim { s with mode := .enc, cnt := 0 })

/-- `LN[i] <- mod26(sum_j KI[i][j] * SV[j])` for `i < KDIM` (spec/42_hill_engine.md R111). -/
def storeShift (s : State) : State :=
  { s with ln := Vec.fill s.ln 0 s.kdim (transformedShift s.kdim (Mat.get s.ki) (Vec.get s.sv)) }

/-- `DECB` (spec/42_hill_engine.md R111). -/
def execDecb (s : State) : Host.Outcome State Fault Refusal :=
  if s.mode ≠ .idle then .next (refuse 0x31 s)
  else if (computeInverse s).unit = false then .next (raise .notInvertible (computeInverse s))
  else if s.ldim ≠ s.kdim then .next (raise .dimensionMismatch (computeInverse s))
  else .next (succeed s.kdim { storeShift (computeInverse s) with mode := .dec, cnt := 0 })

/-- `IB[CNT] <- r; CNT <- CNT + 1` (spec/42_hill_engine.md R112). -/
def takeLetter (r : Residue) (s : State) : State := { s with ib := Vec.set s.ib s.cnt r, cnt := s.cnt + 1 }

/-- `PUT c` (spec/42_hill_engine.md R112). -/
def execPut (c : Nat) (s : State) : Host.Outcome State Fault Refusal :=
  if s.mode = .idle then .next (refuse 0x32 s)
  else match toResidue c with
    | none => .next (raiseInSession .invalidSymbol s)
    | some r =>
      if s.cnt + 1 = s.kdim then .next (succeed s.kdim (flushBlock (takeLetter r s)))
      else .next (succeed 0 (takeLetter r s))

/-- `IB[i] <- 25` for `i` from `CNT` to `KDIM - 1` (spec/42_hill_engine.md R113). -/
def padBlock (s : State) : State := { s with ib := Vec.fill s.ib s.cnt s.kdim fun _ => padResidue }

/-- `END` (spec/42_hill_engine.md R113). -/
def execEnd (s : State) : Host.Outcome State Fault Refusal :=
  match s.mode with
  | .idle => .next (refuse 0x33 s)
  | .enc =>
    if 0 < s.cnt then .next (succeed s.kdim { flushBlock (padBlock s) with mode := .idle })
    else .next (succeed 0 { s with mode := .idle })
  | .dec =>
    if 0 < s.cnt then .next (raiseInSession .dimensionMismatch s)
    else .next (succeed 0 { s with mode := .idle })

end Sys2Proof.Machine
end

