-- ==== Sys2Proof/Machine/Dispatch.lean ====
section
/-! DEFINITION. Sys2Proof/Machine/Dispatch.lean: one arm per command of spec/30_encoding.md R52. -/

namespace Sys2Proof.Machine

def exec (i : Instr) (s : State) : Host.Outcome State Fault Refusal :=
  match i with
  | .setkd k => Sys2Proof.Machine.execSetkd k s
  | .setld k => Sys2Proof.Machine.execSetld k s
  | .ldk row col v => Sys2Proof.Machine.execLdk row col v s
  | .ldl row v => Sys2Proof.Machine.execLdl row v s
  | .chk => Sys2Proof.Machine.execChk s
  | .inv => Sys2Proof.Machine.execInv s
  | .encb => Sys2Proof.Machine.execEncb s
  | .decb => Sys2Proof.Machine.execDecb s
  | .put c => Sys2Proof.Machine.execPut c s
  | .endText => Sys2Proof.Machine.execEnd s
  | .rd reg row col => Sys2Proof.Machine.execRd reg row col s

end Sys2Proof.Machine
end

