-- ==== Sys2Proof/Machine/Step.lean ====
section
/-! DEFINITION. Sys2Proof/Machine/Step.lean: one move of the host, the step function of spec/20_memory.md R43. -/

namespace Sys2Proof.Machine

/-- One step: the oldest move the host has queued. A command word is executed or refused, `rst` resets, and with
nothing queued the unit holds its state (spec/20_memory.md R43, spec/70_reset_and_hazards.md R170, R176). -/
def step (s : State) : Host.Outcome State Fault Refusal :=
  match s.cmd with
  | [] => .next (hold s)
  | .rst :: rest => .next (applyReset { s with cmd := rest })
  | .word w :: rest =>
    match decode w with
    | .ok i => exec i { s with cmd := rest }
    | .error _ => .next (refuseWord w { s with cmd := rest })

/-- `s` with the command word whose `nbits` low bits are `w` as the host's next move: the unit fetches nothing, a
command is consumed from the port (spec/20_memory.md R46, log 10). -/
def State.withFetchWord (s : State) (nbits w : Nat) : State :=
  { s with cmd := .word (BitVec.ofNat 32 (w % 2 ^ nbits)) :: s.cmd }

end Sys2Proof.Machine
end

