-- ==== Sys2Proof/Machine/Assembler.lean ====
section
/-! DEFINITION. Sys2Proof/Machine/Assembler.lean: the assembler syntax and the pseudo-instructions of
spec/30_encoding.md R58 and R59. It is the host's tool, not the unit's; details of spelling the rules leave open are
in log 9. -/

namespace Sys2Proof.Machine

/-! ### From commands to words: the pseudo-instructions of R59 -/

/-- `KEY rows`: `SETKD k`, then `LDK i, j, aij` row by row. "A `KEY` whose rows are not all of length `k` has no
expansion" (spec/30_encoding.md R59). -/
def expandKey (rows : List (List Int)) : Option (List Instr) :=
  if rows.all fun r => r.length == rows.length then
    some (.setkd rows.length :: rows.zipIdx.flatMap fun (r, i) => r.zipIdx.map fun (v, j) => .ldk i j v)
  else none

/-- `SHIFT ns`: `SETLD n`, then `LDL i, bi` (spec/30_encoding.md R59). -/
def expandShift (ns : List Int) : List Instr := .setld ns.length :: ns.zipIdx.map fun (v, i) => .ldl i v

/-- `TEXT "s"`: one `PUT` for each character code, first to last (spec/30_encoding.md R59). -/
def expandText (codes : List Nat) : List Instr := codes.map .put

/-- `ENCRYPT "s"` (spec/30_encoding.md R59). -/
def expandEncrypt (codes : List Nat) : List Instr := .encb :: expandText codes ++ [.endText]

/-- `DECRYPT "s"` (spec/30_encoding.md R59). -/
def expandDecrypt (codes : List Nat) : List Instr := .decb :: expandText codes ++ [.endText]

/-! ### From characters to tokens -/

/-- What a line is made of (spec/30_encoding.md R58, R59). -/
inductive Token where
  | name (cs : List Char)
  | num (v : Int)
  | text (cs : List Char)
  | comma
  | openRow
  | closeRow
  deriving DecidableEq, Repr

/-- The value of a digit, letters for 10 to 15. -/
def digitValue (c : Char) : Nat :=
  if c.isDigit then c.toNat - 0x30 else if c.isUpper then c.toNat - 0x41 + 10 else c.toNat - 0x61 + 10

/-- A digit of a hexadecimal number. -/
def isHexDigit (c : Char) : Bool :=
  c.isDigit || (c.toNat ≥ 0x41 && c.toNat ≤ 0x46) || (c.toNat ≥ 0x61 && c.toNat ≤ 0x66)

/-- The number a string of digits spells in a base. -/
def numberValue (base : Nat) (ds : List Char) : Nat := ds.foldl (fun n c => n * base + digitValue c) 0

/-- The tokens of one line, at most `fuel` of them; `;` starts a comment, a character in single quotes stands for its
code, numbers are decimal or hexadecimal with `0x`, a minus sign goes before a decimal (spec/30_encoding.md R58). DESIGN
CHOICE (log 9, unsafe for programs given as text): blanks only separate, so none is needed between a mnemonic and its
first operand and `SETKD3` is read as `SETKD 3`. -/
def tokens : Nat → List Char → Option (List Token)
  | _, [] => some []
  | 0, _ :: _ => none
  | fuel + 1, c :: rest =>
    if c = ' ' || c = '\t' then tokens fuel rest
    else if c = ';' then some []
    else if c = ',' then (tokens fuel rest).map (Token.comma :: ·)
    else if c = '[' then (tokens fuel rest).map (Token.openRow :: ·)
    else if c = ']' then (tokens fuel rest).map (Token.closeRow :: ·)
    else if c = '\'' then
      match rest with
      | ch :: '\'' :: rest' => (tokens fuel rest').map (Token.num ch.toNat :: ·)
      | _ => none
    else if c = '"' then
      match rest.dropWhile (· ≠ '"') with
      | _ :: rest' => (tokens fuel rest').map (Token.text (rest.takeWhile (· ≠ '"')) :: ·)
      | [] => none
    else if c = '-' then
      if (rest.takeWhile Char.isDigit).isEmpty then none
      else (tokens fuel (rest.dropWhile Char.isDigit)).map
        (Token.num (-(numberValue 10 (rest.takeWhile Char.isDigit) : Int)) :: ·)
    else if c = '0' && rest.head? = some 'x' then
      if (rest.tail.takeWhile isHexDigit).isEmpty then none
      else (tokens fuel (rest.tail.dropWhile isHexDigit)).map
        (Token.num (numberValue 16 (rest.tail.takeWhile isHexDigit)) :: ·)
    else if c.isDigit then
      (tokens fuel (rest.dropWhile Char.isDigit)).map
        (Token.num (numberValue 10 (c :: rest.takeWhile Char.isDigit)) :: ·)
    else if c.isAlpha then
      (tokens fuel (rest.dropWhile Char.isAlpha)).map (Token.name (c :: rest.takeWhile Char.isAlpha) :: ·)
    else none

/-! ### From tokens to commands -/

/-- The names a line can begin with (spec/30_encoding.md R58, R59). -/
inductive LineName where
  | setkd | setld | ldk | ldl | chk | inv | encb | decb | put | endText | rd
  | key | shift | text | encrypt | decrypt
  deriving DecidableEq, Repr

/-- The spelling of each name. -/
def lineNames : List (List Char × LineName) :=
  [ (['S', 'E', 'T', 'K', 'D'], .setkd), (['S', 'E', 'T', 'L', 'D'], .setld), (['L', 'D', 'K'], .ldk),
    (['L', 'D', 'L'], .ldl), (['C', 'H', 'K'], .chk), (['I', 'N', 'V'], .inv), (['E', 'N', 'C', 'B'], .encb),
    (['D', 'E', 'C', 'B'], .decb), (['P', 'U', 'T'], .put), (['E', 'N', 'D'], .endText), (['R', 'D'], .rd) ] ++
  [ (['K', 'E', 'Y'], .key), (['S', 'H', 'I', 'F', 'T'], .shift), (['T', 'E', 'X', 'T'], .text),
    (['E', 'N', 'C', 'R', 'Y', 'P', 'T'], .encrypt), (['D', 'E', 'C', 'R', 'Y', 'P', 'T'], .decrypt) ]

/-- The scalar registers `RD` takes by name (spec/30_encoding.md R58, spec/43_register_read.md R131). -/
def scalarNames : List (List Char × Nat) :=
  [ (['S', 'R'], 0x0000), (['K', 'D', 'I', 'M'], 0x0001), (['L', 'D', 'I', 'M'], 0x0002), (['D', 'E', 'T'], 0x0003),
    (['D', 'I', 'N', 'V'], 0x0004), (['C', 'A', 'P'], 0x0005) ]

/-- The register files `RD` takes with two indices. -/
def matrixNames : List (List Char × Nat) := [ (['K', 'M'], 0x0010), (['K', 'I'], 0x0012) ]

/-- The register files `RD` takes with one index. -/
def vectorNames : List (List Char × Nat) := [ (['S', 'V'], 0x0011), (['L', 'N'], 0x0013) ]

/-- The numbers of a row, after its opening bracket, and what follows its closing bracket. DESIGN CHOICE (log 9, unsafe
for programs given as text): a row has at least one number, so `SHIFT []` and `KEY [[]]` are no lines of the syntax and
have no words. -/
def rowNumbers : List Token → Option (List Int × List Token)
  | .num v :: .closeRow :: rest => some ([v], rest)
  | .num v :: .comma :: rest => (rowNumbers rest).map fun (vs, rest') => (v :: vs, rest')
  | _ => none

/-- The rows of a key, after its opening bracket; the closing bracket ends the line. DESIGN CHOICE (log 9, unsafe for
programs given as text): a key has at least one row, so `KEY []` is no line of the syntax and has no words. -/
def keyRows : Nat → List Token → Option (List (List Int))
  | 0, _ => none
  | fuel + 1, .openRow :: rest =>
    match rowNumbers rest with
    | some (r, [.closeRow]) => some [r]
    | some (r, .comma :: rest') => (keyRows fuel rest').map (r :: ·)
    | _ => none
  | _ + 1, _ => none

/-- The operand `v` of `LDK`, `LDL`: `v AND 0xFFFF`, two's complement (spec/30_encoding.md R58). -/
def signedOperand (v : Int) : Int := sext16 (BitVec.ofInt 16 v)

/-- An unsigned operand; a negative number has none. -/
def unsignedOperand (v : Int) : Option Nat := if 0 ≤ v then some v.toNat else none

/-- The words of commands whose operands all fit their fields. -/
def wordsOf (is : List Instr) : Option (List CmdWord) := if is.all Instr.wf then some (is.map encode) else none

/-- The commands of `RD` lines (spec/30_encoding.md R58). -/
def readLine : List Token → Option (List Instr)
  | [.num reg] => (unsignedOperand reg).map fun n => [.rd n 0 0]
  | [.name n] => (scalarNames.lookup n).map fun reg => [.rd reg 0 0]
  | [.name n, .comma, .num i, .comma, .num j] =>
    match matrixNames.lookup n, unsignedOperand i, unsignedOperand j with
    | some reg, some i, some j => some [.rd reg i j]
    | _, _, _ => none
  | [.name n, .comma, .num i] =>
    match vectorNames.lookup n, unsignedOperand i with
    | some reg, some i => some [.rd reg i 0]
    | _, _ => none
  | _ => none

/-- The codes of the characters of a text. -/
def textCodes (cs : List Char) : List Nat := cs.map Char.toNat

/-- The commands of one line after its name (spec/30_encoding.md R58, R59). -/
def lineCommands (name : LineName) (ops : List Token) : Option (List Instr) :=
  match name, ops with
  | .setkd, [.num k] => (unsignedOperand k).map fun k => [.setkd k]
  | .setld, [.num k] => (unsignedOperand k).map fun k => [.setld k]
  | .ldk, [.num i, .comma, .num j, .comma, .num v] =>
    match unsignedOperand i, unsignedOperand j with
    | some i, some j => some [.ldk i j (signedOperand v)]
    | _, _ => none
  | .ldl, [.num i, .comma, .num v] => (unsignedOperand i).map fun i => [.ldl i (signedOperand v)]
  | .chk, [] => some [.chk]
  | .inv, [] => some [.inv]
  | .encb, [] => some [.encb]
  | .decb, [] => some [.decb]
  | .put, [.num c] => (unsignedOperand c).map fun c => [.put c]
  | .endText, [] => some [.endText]
  | .rd, ops => readLine ops
  | .key, .openRow :: rest => (keyRows rest.length rest).bind fun rows => expandKey (rows.map (·.map signedOperand))
  | .shift, .openRow :: rest =>
    match rowNumbers rest with
    | some (ns, []) => some (expandShift (ns.map signedOperand))
    | _ => none
  | .text, [.text cs] => some (expandText (textCodes cs))
  | .encrypt, [.text cs] => some (expandEncrypt (textCodes cs))
  | .decrypt, [.text cs] => some (expandDecrypt (textCodes cs))
  | _, _ => none

/-- The words of one line, `none` where the line is not of the syntax; an empty line has no words. -/
def assembleLine (line : List Char) : Option (List CmdWord) :=
  match tokens line.length line with
  | some [] => some []
  | some (.name n :: ops) => (lineNames.lookup n).bind fun name => (lineCommands name ops).bind wordsOf
  | _ => none

/-- The words of a program, one line after the other. -/
def assemble : List (List Char) → Option (List CmdWord)
  | [] => some []
  | line :: rest =>
    match assembleLine line, assemble rest with
    | some ws, some ws' => some (ws ++ ws')
    | _, _ => none

end Sys2Proof.Machine
end

