-- ==== Sys2Proof/Safety.lean ====
section
/-! DEFINITION. Sys2Proof/Safety.lean: the invariants of spec/10_state.md R25, the form of the unit's output, and the
relation "the same but for content no rule can observe" (spec/93_implementation_defined.md U10). -/

namespace Sys2Proof.Machine

/-- The invariants of spec/10_state.md R25. Items 1, 3 and 9 hold by type: a register of residues holds `Fin 26`,
`MODE` has three values and `ERR` five. -/
structure Inv (s : State) : Prop where
  /-- `KMAX` is from 1 to 16 (spec/00_scope.md R3). -/
  capLegal : Config.legalKmax s.cap = true
  /-- item 2 -/
  kdimRange : 1 ≤ s.kdim ∧ s.kdim ≤ s.cap
  /-- item 2 -/
  ldimRange : 1 ≤ s.ldim ∧ s.ldim ≤ s.cap
  /-- item 4 -/
  cntRange : s.cnt < s.kdim
  /-- item 4 -/
  cntIdle : s.mode = .idle → s.cnt = 0
  /-- item 5 -/
  detCurrent : s.detv = true → s.det = mod26 (det s.kdim (keyMatrix s)) ∧ (s.unit = true ↔ Nat.gcd s.det.val 26 = 1)
  /-- item 5 -/
  detStale : s.detv = false → s.unit = false
  /-- item 6 -/
  kivFlags : s.kiv = true → s.detv = true ∧ s.unit = true ∧ s.dinv = inv26 s.det
  /-- item 6 -/
  kiCurrent : s.kiv = true → ∀ i < s.kdim, ∀ j < s.kdim,
    Mat.get s.ki i j = mod26 (resVal s.dinv * adj s.kdim (keyMatrix s) i j)
  /-- item 7 -/
  sessionDims : s.mode ≠ .idle → s.ldim = s.kdim
  /-- item 8 -/
  decInverse : s.mode = .dec → s.kiv = true
  /-- item 8 -/
  decShift : s.mode = .dec → ∀ i < s.kdim,
    Vec.get s.ln i = mod26 (sumTo s.kdim fun j => resVal (Mat.get s.ki i j) * resVal (Vec.get s.sv j))

/-- The model's own (log 6): the cells at `KMAX` and above, which the unit does not have, hold 0, so two states that
differ only there do not both occur. -/
structure CellsBeyondCap (s : State) : Prop where
  mat : ∀ i < 16, ∀ j < 16, s.cap ≤ i ∨ s.cap ≤ j → Mat.get s.km i j = 0 ∧ Mat.get s.ki i j = 0
  vec : ∀ i < 16, s.cap ≤ i → Vec.get s.sv i = 0 ∧ Vec.get s.ln i = 0 ∧ Vec.get s.ib i = 0

/-- The table of spec/60_exceptions.md R147: which command is accepted in which mode. -/
def acceptedIn (m : Mode) : Instr → Bool
  | .setkd _ => m == .idle
  | .setld _ => m == .idle
  | .ldk _ _ _ => m == .idle
  | .ldl _ _ => m == .idle
  | .chk => m == .idle
  | .inv => m == .idle
  | .encb => m == .idle
  | .decb => m == .idle
  | .put _ => m != .idle
  | .endText => m != .idle
  | .rd _ _ _ => true

/-- The operand ranges of spec/30_encoding.md R53, and for `RD` the conditions of spec/43_register_read.md R131. -/
def operandsLegal (s : State) : Instr → Bool
  | .setkd k => legalDim k s
  | .setld k => legalDim k s
  | .ldk row col _ => legalIndex row s && legalIndex col s
  | .ldl row _ => legalIndex row s
  | .chk => true
  | .inv => true
  | .encb => true
  | .decb => true
  | .put _ => true
  | .endText => true
  | .rd reg row col => (readReg reg row col s).isSome

/-- The four commands of spec/40_key_load.md. -/
def isKeyLoad : Instr → Bool
  | .setkd _ => true
  | .setld _ => true
  | .ldk _ _ _ => true
  | .ldl _ _ => true
  | .chk => false
  | .inv => false
  | .encb => false
  | .decb => false
  | .put _ => false
  | .endText => false
  | .rd _ _ _ => false

/-- A list of commands executed one after the other: the left fold of spec/70_reset_and_hazards.md R181. -/
def execList : List Instr → State → Host.Outcome State Fault Refusal
  | [], s => .next s
  | i :: is, s =>
    match exec i s with
    | .next t => execList is t
    | .fault f => .fault f
    | .refused r => .refused r

/-- Commands as moves of the host. -/
def asMoves (is : List Instr) : List HostMove := is.map fun i => .word (encode i)

/-- How many command words are among the moves. -/
def wordCount (ms : List HostMove) : Nat :=
  (ms.filter fun m => match m with | .word _ => true | .rst => false).length

/-- A response word as spec/30_encoding.md R54 lays it out: one of the five codes, bits 27:16 zero, and data 0 with
every error. -/
def goodResponse (w : RspWord) : Prop :=
  ∃ (e : ErrCode) (d : Data), w = e.bits ++ ((0 : BitVec 12) ++ d) ∧ (e ≠ .success → d = 0)

/-- A symbol "always in 0x61 to 0x7A" (spec/30_encoding.md R60). -/
def goodSymbol (c : SymCode) : Prop := 0x61 ≤ c.toNat ∧ c.toNat ≤ 0x7A

/-- Everything transferred so far has the form of spec/30_encoding.md R54 and R60. -/
def OutputForm (s : State) : Prop :=
  (∀ c ∈ symbolsOf s.out, goodSymbol c) ∧ (∀ w ∈ responsesOf s.out, goodResponse w)

/-- Two states that differ at most in content no rule can observe (spec/93_implementation_defined.md U10): `DET`
while `DETV = 0`, `DINV` and `KI` while `KIV = 0`, `KI` outside the `KDIM` by `KDIM` part, `LN` outside a `DEC`
session or at `KDIM` and above, and `IB` at `CNT` and above. -/
structure SameObservable (s t : State) : Prop where
  cap : t.cap = s.cap
  km : t.km = s.km
  sv : t.sv = s.sv
  kdim : t.kdim = s.kdim
  ldim : t.ldim = s.ldim
  cnt : t.cnt = s.cnt
  mode : t.mode = s.mode
  err : t.err = s.err
  detv : t.detv = s.detv
  unit : t.unit = s.unit
  kiv : t.kiv = s.kiv
  cmd : t.cmd = s.cmd
  out : t.out = s.out
  det : s.detv = true → t.det = s.det
  dinv : s.kiv = true → t.dinv = s.dinv
  ki : s.kiv = true → ∀ i < s.kdim, ∀ j < s.kdim, Mat.get t.ki i j = Mat.get s.ki i j
  ln : s.mode = .dec → ∀ i < s.kdim, Vec.get t.ln i = Vec.get s.ln i
  ib : ∀ i < s.cnt, Vec.get t.ib i = Vec.get s.ib i

end Sys2Proof.Machine
end

