-- ==== Sys2Proof/Certificates/Slice0/Obligations.lean ====
section
/-! DEFINITION. Sys2Proof/Certificates/Slice0/Obligations.lean: the statements for the provers. A rule R<n> is one of
spec/; where a clause rests on a choice of the model the docstring names its log entry. -/

open Sys2Proof Sys2Proof.Machine

/-! ### Encoding -/

/-- Decoding the word of a well-formed command gives the command back, every operand at every value its field
admits (spec/30_encoding.md R50 to R53). -/
def Obligations.DecodeInvertsEncode : Prop := ∀ i : Instr, i.wf = true → decode (encode i) = .ok i

/-- Every word that decodes is the word of the command it decodes to, and that command is well-formed: no bit of a
legal word is ignored (spec/30_encoding.md R51 to R53). -/
def Obligations.EncodeInvertsDecode : Prop :=
  ∀ (w : CmdWord) (i : Instr), decode w = .ok i → encode i = w ∧ i.wf = true

/-- R51: a word decodes to the command of the first and only row it matches; at most one row matches; a word that
matches no row is rejected; every word does one or the other; and the mask of a row covers the opcode and every field
the command does not use, so the command decides its word. -/
def Obligations.DecodeFollowsOpcodeMap : Prop :=
  ∀ w : CmdWord,
    (∀ r ∈ opcodeTable, w &&& r.mask = r.matchBits → decode w = .ok (r.build (fields w))) ∧
    (∀ r ∈ opcodeTable, ∀ q ∈ opcodeTable, w &&& r.mask = r.matchBits → w &&& q.mask = q.matchBits →
      r.matchBits = q.matchBits ∧ r.mask = q.mask) ∧
    ((∀ r ∈ opcodeTable, w &&& r.mask ≠ r.matchBits) → ∃ e, decode w = .error e) ∧
    (∀ r ∈ opcodeTable, r.mask.extractLsb' 24 8 = 0xFF) ∧
    (∀ i, decode w = .ok i → ∀ w', decode w' = .ok i → w' = w)

/-- R55 cases 1 and 2: a word is rejected as an unassigned opcode exactly when its `op` is none of the eleven, and as
a non-zero unused field exactly when its `op` is one of them and it matches no row; all zeros and all ones are
rejected. -/
def Obligations.IllegalWordsRejectedByName : Prop :=
  (∀ w : CmdWord, decode w = .error (.unassignedOpcode (w.extractLsb' 24 8)) ↔
    w.toNat / 2 ^ 24 ∉ [0x10, 0x11, 0x12, 0x13, 0x20, 0x21, 0x30, 0x31, 0x32, 0x33, 0x40]) ∧
  (∀ w : CmdWord, decode w = .error (.unusedFieldNotZero (w.extractLsb' 24 8)) ↔
    (w.toNat / 2 ^ 24 ∈ [0x10, 0x11, 0x12, 0x13, 0x20, 0x21, 0x30, 0x31, 0x32, 0x33, 0x40] ∧
      ∀ i : Instr, decode w ≠ .ok i)) ∧
  decode 0x00000000 = .error (.unassignedOpcode 0x00) ∧ decode 0xFFFFFFFF = .error (.unassignedOpcode 0xFF)

/-- R50, R58: the word of each command is the sum the syntax table gives, `op * 2^24 + row * 2^20 + col * 2^16 +
imm16`, a signed operand in two's complement. -/
def Obligations.EncodedWordsAreTheTablesSums : Prop :=
  (∀ k : Nat, k < 65536 →
    encode (.setkd k) = BitVec.ofNat 32 (0x10000000 + k) ∧ encode (.setld k) = BitVec.ofNat 32 (0x11000000 + k) ∧
    encode (.put k) = BitVec.ofNat 32 (0x32000000 + k)) ∧
  (∀ (i j : Nat) (v : Int), i < 16 → j < 16 → -32768 ≤ v → v ≤ 32767 →
    encode (.ldk i j v) = BitVec.ofNat 32 (0x12000000 + i * 2 ^ 20 + j * 2 ^ 16 + (v % 65536).toNat) ∧
    encode (.ldl i v) = BitVec.ofNat 32 (0x13000000 + i * 2 ^ 20 + (v % 65536).toNat)) ∧
  (∀ reg i j : Nat, reg < 65536 → i < 16 → j < 16 →
    encode (.rd reg i j) = BitVec.ofNat 32 (0x40000000 + i * 2 ^ 20 + j * 2 ^ 16 + reg)) ∧
  encode .chk = 0x20000000 ∧ encode .inv = 0x21000000 ∧ encode .encb = 0x30000000 ∧ encode .decb = 0x31000000 ∧
  encode .endText = 0x33000000

/-- Words written out in spec/30_encoding.md R58 and spec/95_test_vectors.md decode to the commands they stand for. -/
def Obligations.SampleWordsDecode : Prop :=
  decode 0x12110003 = .ok (.ldk 1 1 3) ∧ decode 0x1201FFFF = .ok (.ldk 0 1 (-1)) ∧
  decode 0x13100014 = .ok (.ldl 1 20) ∧ decode 0x10000003 = .ok (.setkd 3) ∧ decode 0x11000002 = .ok (.setld 2) ∧
  decode 0x20000000 = .ok .chk ∧ decode 0x21000000 = .ok .inv ∧ decode 0x30000000 = .ok .encb ∧
  decode 0x31000000 = .ok .decb ∧ decode 0x32000070 = .ok (.put 0x70) ∧ decode 0x33000000 = .ok .endText ∧
  decode 0x40100012 = .ok (.rd 0x12 1 0)

/-! ### One step -/

/-- When the host's next move is the word of a well-formed command, or any word that decodes to a command, the step is
`exec` of that command on the state without that move: nothing else is added around it (spec/20_memory.md R43, R46;
the queue of moves is log 2). -/
def Obligations.StepRunsTheDecodedCommand : Prop :=
  ∀ (s : State) (w : CmdWord) (rest : List HostMove) (i : Instr),
    s.cmd = .word w :: rest →
      (decode w = .ok i → step s = exec i { s with cmd := rest }) ∧
      (i.wf = true → w = encode i → step s = exec i { s with cmd := rest })

/-- A word that decodes to no command is refused: `ERR <- 5` and the response 0x50000000, nothing else (R55, R146). -/
def Obligations.UndecodableWordIsRefused : Prop :=
  ∀ (s : State) (w : CmdWord) (rest : List HostMove),
    s.cmd = .word w :: rest → (∀ i : Instr, decode w ≠ .ok i) →
      step s = .next { s with cmd := rest, err := .illegalCommand, out := s.out ++ [.response 0x50000000] }

/-- Every state has a next state: no step faults, none is refused (spec/20_memory.md R43, the step function "is
total"; spec/70_reset_and_hazards.md R181, "no command loops or waits"), provided the host takes every output, the
fairness assumption of R179 that the model makes (log 5). With nothing sent it is the same state: the
model's choice, log 3 (from R165: "between commands the unit simply holds its state"). -/
def Obligations.EveryStepAnswers : Prop :=
  (∀ s : State, ∃ t, step s = .next t) ∧ ∀ s : State, s.cmd = [] → step s = .next s

/-- One command word is answered by exactly one response word, after all of its symbols; the symbols are none or
`KDIM`; nothing already sent changes and exactly that word is consumed (spec/10_state.md R30, spec/30_encoding.md
R54). -/
def Obligations.EachWordGetsOneResponse : Prop :=
  ∀ (s : State) (w : CmdWord) (rest : List HostMove), s.cmd = .word w :: rest →
    ∃ t syms r, step s = .next t ∧ t.cmd = rest ∧
      t.out = s.out ++ (List.map PortOut.symbol syms ++ [.response r]) ∧ (syms = [] ∨ syms.length = s.kdim)

/-- A list of moves of any length is consumed whole, in as many steps, with one response for each word and none for a
reset (R181). It speaks of steps of the model. That a run of the unit ends takes the fairness assumption of R179 on the
host, which the model makes for every run (log 5): the host takes every symbol and every response eventually. -/
def Obligations.RunConsumesEveryMove : Prop :=
  ∀ s : State, ∃ t, Host.Core.run Sys2Proof.core s.cmd.length s = .next t ∧ t.cmd = [] ∧
    (responsesOf t.out).length = (responsesOf s.out).length + wordCount s.cmd ∧ s.out <+: t.out

/-! ### Reset -/

/-- R27: the reset values, for every `KMAX`; `SR = 0x0000`; the reset key is not invertible (`gcd(0, 26) = 26`);
`State.reset` is one of these states (its `KMAX` is the model's choice, log 1). -/
def Obligations.ResetValues : Prop :=
  (∀ kmax : Nat,
    (∀ i j, Mat.get (State.resetFor kmax).km i j = 0) ∧ (∀ i, Vec.get (State.resetFor kmax).sv i = 0) ∧
    (∀ i j, Mat.get (State.resetFor kmax).ki i j = 0) ∧ (∀ i, Vec.get (State.resetFor kmax).ln i = 0) ∧
    (∀ i, Vec.get (State.resetFor kmax).ib i = 0) ∧ (State.resetFor kmax).kdim = 1 ∧
    (State.resetFor kmax).ldim = 1 ∧ (State.resetFor kmax).cnt = 0 ∧ (State.resetFor kmax).mode = .idle ∧
    (State.resetFor kmax).err = .success ∧ (State.resetFor kmax).det = 0 ∧ (State.resetFor kmax).dinv = 0 ∧
    (State.resetFor kmax).detv = false ∧ (State.resetFor kmax).unit = false ∧ (State.resetFor kmax).kiv = false ∧
    statusReg (State.resetFor kmax) = 0x0000 ∧ Nat.gcd (keyDet (State.resetFor kmax)).val 26 = 26) ∧
  ∃ kmax, Config.legalKmax kmax = true ∧ State.reset = State.resetFor kmax

/-- R170: reset, taken between two commands, puts every register of R10 at its reset value from whatever state, sends
no symbol and no response. The parameter, what was sent and what the host has still to send stay (log 4). -/
def Obligations.ResetMoveRestoresResetState : Prop :=
  ∀ (s : State) (rest : List HostMove), s.cmd = .rst :: rest →
    step s = .next
      { cap := s.cap, km := zeroMat, sv := zeroVec, kdim := 1, ldim := 1, ki := zeroMat, ln := zeroVec, ib := zeroVec,
        cnt := 0, mode := .idle, err := .success, det := 0, detv := false, unit := false, dinv := 0, kiv := false,
        cmd := rest, out := s.out }

/-! ### Results of the commands -/

/-- R70 `SETKD k`: when it is accepted, what it writes and answers; otherwise the refusal; and its word. -/
def Obligations.SetkdResult : Prop :=
  ∀ (k : Nat) (s : State), k < 65536 →
    (s.mode = .idle → 1 ≤ k → k ≤ s.cap →
      exec (.setkd k) s = .next { s with
        kdim := k, detv := false, unit := false, kiv := false, err := .success,
        out := s.out ++ [.response (BitVec.ofNat 32 k)] }) ∧
    (¬ (s.mode = .idle ∧ 1 ≤ k ∧ k ≤ s.cap) →
      exec (.setkd k) s = .next { s with err := .illegalCommand, out := s.out ++ [.response 0x50000000] }) ∧
    decode (BitVec.ofNat 32 (0x10000000 + k)) = .ok (.setkd k)

/-- R71 `SETLD k`: when it is accepted, what it writes and answers; otherwise the refusal; its word; a dimension that
differs from `KDIM` makes a following `ENCB` answer `DimensionMismatch`; and `LDIM` is looked at by `ENCB`, `DECB` and
the `RD` of it only. -/
def Obligations.SetldResult : Prop :=
  ∀ (k : Nat) (s : State), k < 65536 →
    (s.mode = .idle → 1 ≤ k → k ≤ s.cap →
      exec (.setld k) s = .next { s with
        ldim := k, err := .success, out := s.out ++ [.response (BitVec.ofNat 32 k)] } ∧
      (k ≠ s.kdim → execList [.setld k, .encb] s = .next { s with
        ldim := k, err := .dimensionMismatch,
        out := s.out ++ [.response (BitVec.ofNat 32 k), .response 0x30000000] })) ∧
    (¬ (s.mode = .idle ∧ 1 ≤ k ∧ k ≤ s.cap) →
      exec (.setld k) s = .next { s with err := .illegalCommand, out := s.out ++ [.response 0x50000000] }) ∧
    decode (BitVec.ofNat 32 (0x11000000 + k)) = .ok (.setld k) ∧
    (∀ i : Instr, i ≠ .encb → i ≠ .decb → (∀ row col, i ≠ .rd 0x0002 row col) → (∀ k', i ≠ .setld k') →
      ∃ t, exec i s = .next t ∧ exec i { s with ldim := k } = .next { t with ldim := k })

/-- R72 `LDK i, j, v`: the residue of `v` is stored in that element alone, inside or outside the present key, the key
flags are cleared, the residue is answered; otherwise the refusal; its word; the corner values of R72. -/
def Obligations.LdkResult : Prop :=
  ∀ (row col : Nat) (v : Int) (s : State), s.cap ≤ 16 →
    (s.mode = .idle → row < s.cap → col < s.cap →
      ∃ km', exec (.ldk row col v) s = .next { s with
          km := km', detv := false, unit := false, kiv := false, err := .success,
          out := s.out ++ [.response (BitVec.ofNat 32 (mod26 v).val)] } ∧
        ∀ i j, Mat.get km' i j = if i = row ∧ j = col then mod26 v else Mat.get s.km i j) ∧
    (¬ (s.mode = .idle ∧ row < s.cap ∧ col < s.cap) →
      exec (.ldk row col v) s = .next { s with err := .illegalCommand, out := s.out ++ [.response 0x50000000] }) ∧
    (row < 16 → col < 16 → -32768 ≤ v → v ≤ 32767 →
      decode (BitVec.ofNat 32 (0x12000000 + row * 2 ^ 20 + col * 2 ^ 16 + (v % 65536).toNat)) = .ok (.ldk row col v)) ∧
    mod26 (-1) = 25 ∧ mod26 26 = 0 ∧ mod26 27 = 1 ∧ mod26 (-32768) = 18 ∧ mod26 32767 = 7

/-- R73 `LDL i, v`: the residue of `v` is stored in that element alone and answered, no flag changes; otherwise the
refusal; its word, and the word with `col` not zero, which is rejected. -/
def Obligations.LdlResult : Prop :=
  ∀ (row : Nat) (v : Int) (s : State), s.cap ≤ 16 →
    (s.mode = .idle → row < s.cap →
      ∃ sv', exec (.ldl row v) s = .next { s with
          sv := sv', err := .success, out := s.out ++ [.response (BitVec.ofNat 32 (mod26 v).val)] } ∧
        ∀ i, Vec.get sv' i = if i = row then mod26 v else Vec.get s.sv i) ∧
    (¬ (s.mode = .idle ∧ row < s.cap) →
      exec (.ldl row v) s = .next { s with err := .illegalCommand, out := s.out ++ [.response 0x50000000] }) ∧
    (row < 16 → -32768 ≤ v → v ≤ 32767 →
      decode (BitVec.ofNat 32 (0x13000000 + row * 2 ^ 20 + (v % 65536).toNat)) = .ok (.ldl row v) ∧
      ∀ col, 0 < col → col < 16 →
        decode (BitVec.ofNat 32 (0x13000000 + row * 2 ^ 20 + col * 2 ^ 16 + (v % 65536).toNat)) =
          .error (.unusedFieldNotZero 0x13))

/-- R90 `CHK` (with R87): `DET`, `DETV`, `UNIT` from the key, the answer `UNIT + 256 * DET`, nothing else written, no
error for a key that is not invertible; otherwise the refusal. -/
def Obligations.ChkResult : Prop :=
  ∀ (s : State) (d : Residue), d = mod26 (det s.kdim fun i j => resVal (Mat.get s.km i j)) →
    (s.mode = .idle →
      (Nat.gcd d.val 26 = 1 → exec .chk s = .next { s with
        det := d, detv := true, unit := true, err := .success,
        out := s.out ++ [.response (BitVec.ofNat 32 (1 + 256 * d.val))] }) ∧
      (Nat.gcd d.val 26 ≠ 1 → exec .chk s = .next { s with
        det := d, detv := true, unit := false, err := .success,
        out := s.out ++ [.response (BitVec.ofNat 32 (256 * d.val))] })) ∧
    (s.mode ≠ .idle →
      exec .chk s = .next { s with err := .illegalCommand, out := s.out ++ [.response 0x50000000] }) ∧
    decode 0x20000000 = .ok .chk ∧
    ∀ w : CmdWord, w.extractLsb' 24 8 = 0x20 → w ≠ 0x20000000 → decode w = .error (.unusedFieldNotZero 0x20)

/-- R91 `INV` (with R86, R87): an invertible key gives `DINV` and the `KDIM` by `KDIM` part of `KI`, the rest of `KI`
kept; another key gives `NotInvertible` with `DET`, `DETV`, `UNIT` written, `KIV` cleared and `KI`, `DINV` kept;
in a session the refusal. -/
def Obligations.InvResult : Prop :=
  ∀ (s : State) (d : Residue), d = mod26 (det s.kdim fun i j => resVal (Mat.get s.km i j)) →
    (s.mode = .idle →
      (Nat.gcd d.val 26 = 1 → ∃ ki', exec .inv s = .next { s with
          det := d, detv := true, unit := true, dinv := inv26 d, ki := ki', kiv := true, err := .success,
          out := s.out ++ [.response (BitVec.ofNat 32 (1 + 256 * d.val))] } ∧
        (s.kdim ≤ 16 → ∀ i j, Mat.get ki' i j =
          if i < s.kdim ∧ j < s.kdim then
            mod26 (resVal (inv26 d) * adj s.kdim (fun i j => resVal (Mat.get s.km i j)) i j)
          else Mat.get s.ki i j)) ∧
      (Nat.gcd d.val 26 ≠ 1 → exec .inv s = .next { s with
        det := d, detv := true, unit := false, kiv := false, err := .notInvertible,
        out := s.out ++ [.response 0x20000000] })) ∧
    (s.mode ≠ .idle →
      exec .inv s = .next { s with err := .illegalCommand, out := s.out ++ [.response 0x50000000] }) ∧
    decode 0x21000000 = .ok .inv ∧
    ∀ w : CmdWord, w.extractLsb' 24 8 = 0x21 → w ≠ 0x21000000 → decode w = .error (.unusedFieldNotZero 0x21)

/-- R110 `ENCB`: with equal dimensions an encrypt session opens, whatever the key; otherwise `DimensionMismatch`; in a
session the refusal. -/
def Obligations.EncbResult : Prop :=
  ∀ s : State, s.kdim ≤ 16 →
    (s.mode = .idle → s.ldim = s.kdim → exec .encb s = .next { s with
      mode := .enc, cnt := 0, err := .success, out := s.out ++ [.response (BitVec.ofNat 32 s.kdim)] }) ∧
    (s.mode = .idle → s.ldim ≠ s.kdim → exec .encb s = .next { s with
      err := .dimensionMismatch, out := s.out ++ [.response 0x30000000] }) ∧
    (s.mode ≠ .idle →
      exec .encb s = .next { s with err := .illegalCommand, out := s.out ++ [.response 0x50000000] }) ∧
    decode 0x30000000 = .ok .encb

/-- R111 `DECB`: the inverse step first; `NotInvertible` before `DimensionMismatch`; with an invertible key and equal
dimensions `LN` is the reduced `KI * SV` below `KDIM` and a decrypt session opens; in a session the refusal. -/
def Obligations.DecbResult : Prop :=
  ∀ (s : State) (d : Residue), s.kdim ≤ 16 → d = mod26 (det s.kdim fun i j => resVal (Mat.get s.km i j)) →
    (s.mode = .idle →
      (Nat.gcd d.val 26 ≠ 1 → exec .decb s = .next { s with
        det := d, detv := true, unit := false, kiv := false, err := .notInvertible,
        out := s.out ++ [.response 0x20000000] }) ∧
      (Nat.gcd d.val 26 = 1 → ∃ ki',
        (∀ i j, Mat.get ki' i j =
          if i < s.kdim ∧ j < s.kdim then
            mod26 (resVal (inv26 d) * adj s.kdim (fun i j => resVal (Mat.get s.km i j)) i j)
          else Mat.get s.ki i j) ∧
        (s.ldim ≠ s.kdim → exec .decb s = .next { s with
          det := d, detv := true, unit := true, dinv := inv26 d, ki := ki', kiv := true, err := .dimensionMismatch,
          out := s.out ++ [.response 0x30000000] }) ∧
        (s.ldim = s.kdim → ∃ ln', exec .decb s = .next { s with
            det := d, detv := true, unit := true, dinv := inv26 d, ki := ki', kiv := true, ln := ln', mode := .dec,
            cnt := 0, err := .success, out := s.out ++ [.response (BitVec.ofNat 32 s.kdim)] } ∧
          ∀ i, Vec.get ln' i =
            if i < s.kdim then mod26 (sumTo s.kdim fun j => resVal (Mat.get ki' i j) * resVal (Vec.get s.sv j))
            else Vec.get s.ln i))) ∧
    (s.mode ≠ .idle →
      exec .decb s = .next { s with err := .illegalCommand, out := s.out ++ [.response 0x50000000] }) ∧
    decode 0x31000000 = .ok .decb

/-- R112 `PUT c`: refused outside a session; a code that is no letter ends the session with `InvalidSymbol` and sends
nothing; a letter is stored at `CNT`; a full block is sent, element 0 first, as R105 (`ENC`) or R106 (`DEC`) compute
it, and the answer is the number of symbols sent. -/
def Obligations.PutResult : Prop :=
  ∀ (c : Nat) (s : State), s.cnt < 16 →
    (s.mode = .idle →
      exec (.put c) s = .next { s with err := .illegalCommand, out := s.out ++ [.response 0x50000000] }) ∧
    (s.mode ≠ .idle → (c < 0x61 ∨ 0x7A < c) → exec (.put c) s = .next { s with
      mode := .idle, cnt := 0, err := .invalidSymbol, out := s.out ++ [.response 0x10000000] }) ∧
    (s.mode ≠ .idle → 0x61 ≤ c → c ≤ 0x7A → ∃ ib',
      (∀ i, Vec.get ib' i = if i = s.cnt then mod26 ((c : Int) - 0x61) else Vec.get s.ib i) ∧
      (s.cnt + 1 ≠ s.kdim → exec (.put c) s = .next { s with
        ib := ib', cnt := s.cnt + 1, err := .success, out := s.out ++ [.response 0x00000000] }) ∧
      (s.cnt + 1 = s.kdim → s.mode = .enc → exec (.put c) s = .next { s with
        ib := ib', cnt := 0, err := .success,
        out := s.out ++ ((List.range s.kdim).map fun i => .symbol (BitVec.ofNat 8 (0x61 +
          (mod26 (sumTo s.kdim (fun j => resVal (Mat.get s.km i j) * resVal (Vec.get ib' j)) +
            resVal (Vec.get s.sv i))).val))) ++ [.response (BitVec.ofNat 32 s.kdim)] }) ∧
      (s.cnt + 1 = s.kdim → s.mode = .dec → exec (.put c) s = .next { s with
        ib := ib', cnt := 0, err := .success,
        out := s.out ++ ((List.range s.kdim).map fun i => .symbol (BitVec.ofNat 8 (0x61 +
          (mod26 (sumTo s.kdim (fun j => resVal (Mat.get s.ki i j) * resVal (Vec.get ib' j)) -
            resVal (Vec.get s.ln i))).val))) ++ [.response (BitVec.ofNat 32 s.kdim)] })) ∧
    (c < 65536 → decode (BitVec.ofNat 32 (0x32000000 + c)) = .ok (.put c))

/-- R113 `END`: refused outside a session; in `ENC` a partial block is padded with the residue 25 and sent, a session
with no partial block sends nothing; in `DEC` a partial block is `DimensionMismatch`; the session is over. -/
def Obligations.EndResult : Prop :=
  ∀ s : State, s.kdim ≤ 16 →
    (s.mode = .idle →
      exec .endText s = .next { s with err := .illegalCommand, out := s.out ++ [.response 0x50000000] }) ∧
    (s.mode ≠ .idle → s.cnt = 0 → exec .endText s = .next { s with
      mode := .idle, err := .success, out := s.out ++ [.response 0x00000000] }) ∧
    (s.mode = .enc → 0 < s.cnt → ∃ ib',
      (∀ i, Vec.get ib' i = if s.cnt ≤ i ∧ i < s.kdim then 25 else Vec.get s.ib i) ∧
      exec .endText s = .next { s with
        ib := ib', cnt := 0, mode := .idle, err := .success,
        out := s.out ++ ((List.range s.kdim).map fun i => .symbol (BitVec.ofNat 8 (0x61 +
          (mod26 (sumTo s.kdim (fun j => resVal (Mat.get s.km i j) * resVal (Vec.get ib' j)) +
            resVal (Vec.get s.sv i))).val))) ++ [.response (BitVec.ofNat 32 s.kdim)] }) ∧
    (s.mode = .dec → 0 < s.cnt → exec .endText s = .next { s with
      mode := .idle, cnt := 0, err := .dimensionMismatch, out := s.out ++ [.response 0x30000000] }) ∧
    decode 0x33000000 = .ok .endText

/-- R130 and R131 `RD`: for each register number, when the read is legal and what it answers; everything else is
answered `IllegalCommand`; no register and no flag changes, `ERR` not even on a refusal, and no symbol is sent. -/
def Obligations.RdResult : Prop :=
  ∀ (reg row col : Nat) (s : State) (answers : Nat → Host.Outcome State Fault Refusal)
    (refused : Host.Outcome State Fault Refusal),
    s.cap ≤ 16 → s.kdim ≤ 16 → s.ldim ≤ 16 → s.cnt < 16 →
    (answers = fun v => .next { s with out := s.out ++ [.response (BitVec.ofNat 32 v)] }) →
    refused = .next { s with out := s.out ++ [.response 0x50000000] } →
    (reg = 0x0000 → exec (.rd reg row col) s = if row = 0 ∧ col = 0 then
      answers (s.mode.bits.toNat + 4 * s.detv.toNat + 8 * s.unit.toNat + 16 * s.kiv.toNat + 256 * s.cnt +
        4096 * s.err.bits.toNat) else refused) ∧
    (reg = 0x0001 → exec (.rd reg row col) s = if row = 0 ∧ col = 0 then answers s.kdim else refused) ∧
    (reg = 0x0002 → exec (.rd reg row col) s = if row = 0 ∧ col = 0 then answers s.ldim else refused) ∧
    (reg = 0x0003 → exec (.rd reg row col) s =
      if row = 0 ∧ col = 0 ∧ s.detv = true then answers s.det.val else refused) ∧
    (reg = 0x0004 → exec (.rd reg row col) s =
      if row = 0 ∧ col = 0 ∧ s.kiv = true then answers s.dinv.val else refused) ∧
    (reg = 0x0005 → exec (.rd reg row col) s = if row = 0 ∧ col = 0 then answers s.cap else refused) ∧
    (reg = 0x0010 → exec (.rd reg row col) s =
      if row < s.cap ∧ col < s.cap then answers (Mat.get s.km row col).val else refused) ∧
    (reg = 0x0011 → exec (.rd reg row col) s =
      if row < s.cap ∧ col = 0 then answers (Vec.get s.sv row).val else refused) ∧
    (reg = 0x0012 → exec (.rd reg row col) s =
      if s.kiv = true ∧ row < s.kdim ∧ col < s.kdim then answers (Mat.get s.ki row col).val else refused) ∧
    (reg = 0x0013 → exec (.rd reg row col) s =
      if s.mode = .dec ∧ row < s.kdim ∧ col = 0 then answers (Vec.get s.ln row).val else refused) ∧
    (reg ∉ [0x0000, 0x0001, 0x0002, 0x0003, 0x0004, 0x0005, 0x0010, 0x0011, 0x0012, 0x0013] →
      exec (.rd reg row col) s = refused) ∧
    (reg < 65536 → row < 16 → col < 16 →
      decode (BitVec.ofNat 32 (0x40000000 + row * 2 ^ 20 + col * 2 ^ 16 + reg)) = .ok (.rd reg row col))

/-- R23: the fields of `SR`, bit by bit; bits 7:5 read as 0. -/
def Obligations.StatusRegisterFields : Prop :=
  ∀ s : State, s.cnt < 16 →
    (statusReg s).extractLsb' 0 2 = s.mode.bits ∧ ((statusReg s).getLsbD 2 = s.detv) ∧
    ((statusReg s).getLsbD 3 = s.unit) ∧ ((statusReg s).getLsbD 4 = s.kiv) ∧
    (statusReg s).extractLsb' 5 3 = 0 ∧ ((statusReg s).extractLsb' 8 4).toNat = s.cnt ∧
    (statusReg s).extractLsb' 12 4 = s.err.bits ∧
    (statusReg s).toNat = s.mode.bits.toNat + 4 * s.detv.toNat + 8 * s.unit.toNat + 16 * s.kiv.toNat + 256 * s.cnt +
      4096 * s.err.bits.toNat

/-! ### Frames -/

/-- What `SETKD`, `SETLD`, `LDK`, `LDL` leave unchanged: everything but their one destination, `ERR`, the response,
and for `SETKD` and `LDK` the three flags. -/
def Obligations.KeyLoadFrame : Prop :=
  ∀ (i : Instr) (s t : State), isKeyLoad i = true → exec i s = .next t →
    t.cap = s.cap ∧ t.ki = s.ki ∧ t.ln = s.ln ∧ t.ib = s.ib ∧ t.cnt = s.cnt ∧ t.mode = s.mode ∧ t.det = s.det ∧
    t.dinv = s.dinv ∧ t.cmd = s.cmd ∧ (∃ r, t.out = s.out ++ [.response r]) ∧
    ((∀ k, i ≠ .setkd k) → t.kdim = s.kdim) ∧ ((∀ k, i ≠ .setld k) → t.ldim = s.ldim) ∧
    ((∀ a b v, i ≠ .ldk a b v) → t.km = s.km) ∧ ((∀ a v, i ≠ .ldl a v) → t.sv = s.sv) ∧
    (∀ a b v, i = .ldk a b v → ∀ x y, ¬ (x = a ∧ y = b) → Mat.get t.km x y = Mat.get s.km x y) ∧
    (∀ a v, i = .ldl a v → ∀ x, x ≠ a → Vec.get t.sv x = Vec.get s.sv x) ∧
    ((∀ k, i ≠ .setkd k) → (∀ a b v, i ≠ .ldk a b v) → t.detv = s.detv ∧ t.unit = s.unit ∧ t.kiv = s.kiv)

/-- What `CHK` and `INV` leave unchanged: the key, the shift, the dimensions, the session; `CHK` also `KI`, `DINV`
and `KIV`; `INV` the elements of `KI` outside the `KDIM` by `KDIM` part. -/
def Obligations.MatrixUnitFrame : Prop :=
  ∀ (i : Instr) (s t : State), i = .chk ∨ i = .inv → exec i s = .next t →
    t.cap = s.cap ∧ t.km = s.km ∧ t.sv = s.sv ∧ t.kdim = s.kdim ∧ t.ldim = s.ldim ∧ t.ln = s.ln ∧ t.ib = s.ib ∧
    t.cnt = s.cnt ∧ t.mode = s.mode ∧ t.cmd = s.cmd ∧ (∃ r, t.out = s.out ++ [.response r]) ∧
    (i = .chk → t.ki = s.ki ∧ t.dinv = s.dinv ∧ t.kiv = s.kiv) ∧
    (∀ x y, ¬ (x < s.kdim ∧ y < s.kdim) → Mat.get t.ki x y = Mat.get s.ki x y)

/-- What `ENCB`, `DECB`, `PUT`, `END` leave unchanged: the key, the shift, the dimensions; all but `DECB` the inverse
unit and `LN`; `ENCB` and `DECB` the block buffer; `PUT` every element of it but the one at `CNT`, `END` every one
below `CNT`. -/
def Obligations.SessionFrame : Prop :=
  ∀ (i : Instr) (s t : State), i = .encb ∨ i = .decb ∨ (∃ c, i = .put c) ∨ i = .endText → exec i s = .next t →
    t.cap = s.cap ∧ t.km = s.km ∧ t.sv = s.sv ∧ t.kdim = s.kdim ∧ t.ldim = s.ldim ∧ t.cmd = s.cmd ∧
    (i ≠ .decb → t.ki = s.ki ∧ t.ln = s.ln ∧ t.det = s.det ∧ t.detv = s.detv ∧ t.unit = s.unit ∧ t.dinv = s.dinv ∧
      t.kiv = s.kiv) ∧
    (i = .decb → (∀ x y, ¬ (x < s.kdim ∧ y < s.kdim) → Mat.get t.ki x y = Mat.get s.ki x y) ∧
      ∀ x, s.kdim ≤ x → Vec.get t.ln x = Vec.get s.ln x) ∧
    (i = .encb ∨ i = .decb → t.ib = s.ib) ∧
    (∀ c, i = .put c → ∀ x, x ≠ s.cnt → Vec.get t.ib x = Vec.get s.ib x) ∧
    (i = .endText → ∀ x, x < s.cnt ∨ s.kdim ≤ x → Vec.get t.ib x = Vec.get s.ib x)

/-- What `RD` leaves unchanged: every register, every flag, `ERR` and the queue; it sends one response and no
symbol (R130). -/
def Obligations.ReadFrame : Prop :=
  ∀ (reg row col : Nat) (s : State), ∃ r, exec (.rd reg row col) s = .next { s with out := s.out ++ [.response r] }

/-- R24: `CAP` is a constant: no step changes it, and `RD` of register 5 answers it. -/
def Obligations.CapIsConstant : Prop :=
  ∀ s : State,
    (∀ t, step s = .next t → t.cap = s.cap) ∧
    (s.cap ≤ 16 →
      exec (.rd 0x0005 0 0) s = .next { s with out := s.out ++ [.response (BitVec.ofNat 32 s.cap)] })

/-! ### Rules about the whole machine -/

/-- R147: a command the mode does not accept is refused, the session goes on and nothing but `ERR` changes; a command
it accepts, its operands legal, is answered with something other than `IllegalCommand`. -/
def Obligations.CommandsAcceptedByMode : Prop :=
  ∀ (i : Instr) (s : State),
    (acceptedIn s.mode i = false →
      exec i s = .next { s with err := .illegalCommand, out := s.out ++ [.response 0x50000000] }) ∧
    (acceptedIn s.mode i = true → operandsLegal s i = true →
      ∃ t pre e d, exec i s = .next t ∧ t.out = pre ++ [.response (responseWord e d)] ∧ e ≠ .illegalCommand)

/-- R100: every transition of `MODE`. -/
def Obligations.ModeTransitions : Prop :=
  (∀ (s : State) (i : Instr), ∃ t, exec i s = .next t ∧
    (s.mode = .idle → i = .encb → t.mode = if s.ldim = s.kdim then .enc else .idle) ∧
    (s.mode = .idle → i = .decb →
      t.mode = if Nat.gcd (mod26 (det s.kdim (keyMatrix s))).val 26 = 1 ∧ s.ldim = s.kdim then .dec else .idle) ∧
    (s.mode = .idle → i ≠ .encb → i ≠ .decb → t.mode = .idle) ∧
    (s.mode ≠ .idle → ∀ c, i = .put c → t.mode = if 0x61 ≤ c ∧ c ≤ 0x7A then s.mode else .idle) ∧
    (s.mode ≠ .idle → i = .endText → t.mode = .idle) ∧
    (s.mode ≠ .idle → (∀ c, i ≠ .put c) → i ≠ .endText → t.mode = s.mode)) ∧
  (∀ (s : State) (w : CmdWord) (rest : List HostMove), s.cmd = .word w :: rest → (∀ i, decode w ≠ .ok i) →
    ∃ t, step s = .next t ∧ t.mode = s.mode) ∧
  (∀ (s : State) (rest : List HostMove), s.cmd = .rst :: rest → ∃ t, step s = .next t ∧ t.mode = .idle)

/-- R32: what sets and clears `DETV`, `UNIT` and `KIV`. `SETLD`, `LDL`, `ENCB`, `PUT`, `END`, `RD` and every command
that is not accepted or has an illegal operand leave all three; a word that decodes to no command leaves them too;
reset clears them. -/
def Obligations.StatusFlagRules : Prop :=
  (∀ (s : State) (i : Instr), ∃ t, exec i s = .next t ∧
    (s.mode = .idle → i = .chk ∨ i = .inv ∨ i = .decb →
      t.detv = true ∧ (t.unit = true ↔ Nat.gcd (mod26 (det s.kdim (keyMatrix s))).val 26 = 1)) ∧
    (s.mode = .idle → i = .inv ∨ i = .decb →
      (t.kiv = true ↔ Nat.gcd (mod26 (det s.kdim (keyMatrix s))).val 26 = 1)) ∧
    (i = .chk → t.kiv = s.kiv) ∧
    (s.mode = .idle → (∃ k, i = .setkd k ∧ 1 ≤ k ∧ k ≤ s.cap) ∨ (∃ a b v, i = .ldk a b v ∧ a < s.cap ∧ b < s.cap) →
      t.detv = false ∧ t.unit = false ∧ t.kiv = false) ∧
    ((∃ k, i = .setld k) ∨ (∃ a v, i = .ldl a v) ∨ i = .encb ∨ (∃ c, i = .put c) ∨ i = .endText ∨
        (∃ g a b, i = .rd g a b) → t.detv = s.detv ∧ t.unit = s.unit ∧ t.kiv = s.kiv) ∧
    (acceptedIn s.mode i = false ∨ operandsLegal s i = false →
      t.detv = s.detv ∧ t.unit = s.unit ∧ t.kiv = s.kiv)) ∧
  (∀ (s : State) (w : CmdWord) (rest : List HostMove), s.cmd = .word w :: rest → (∀ i, decode w ≠ .ok i) →
    ∃ t, step s = .next t ∧ t.detv = s.detv ∧ t.unit = s.unit ∧ t.kiv = s.kiv) ∧
  (∀ (s : State) (rest : List HostMove), s.cmd = .rst :: rest →
    ∃ t, step s = .next t ∧ t.detv = false ∧ t.unit = false ∧ t.kiv = false)

/-- R20: every command but `RD` leaves in `ERR` the code of its own response, `RD` never writes it, and no command
reads it but `RD` of `SR`: with another value in `ERR` every other command writes and answers the same. -/
def Obligations.ErrHoldsTheLastCode : Prop :=
  ∀ (i : Instr) (s : State), ∃ t, exec i s = .next t ∧
    ((∃ reg row col, i = .rd reg row col) → t.err = s.err) ∧
    ((∀ reg row col, i ≠ .rd reg row col) → ∃ (pre : List PortOut) (d : Data),
      t.out = pre ++ [.response (t.err.bits ++ ((0 : BitVec 12) ++ d))]) ∧
    ((∀ row col, i ≠ .rd 0 row col) → ∀ e, ∃ t', exec i { s with err := e } = .next t' ∧ { t' with err := t.err } = t)

/-- The output has the form of R54 and R60 after every step if it had it before: every symbol is a lowercase letter,
every response has one of the five codes (R141), bits 27:16 zero, and data 0 with an error. -/
def Obligations.OutputFormKept : Prop :=
  OutputForm State.reset ∧ ∀ s t : State, OutputForm s → step s = .next t → OutputForm t

/-- The invariants of R25 hold at reset. -/
def Obligations.InvariantAtReset : Prop := Inv State.reset

/-- R25: the invariants hold after reset, for every legal `KMAX`, and every step keeps them. -/
def Obligations.InvariantKept : Prop :=
  (∀ kmax, Config.legalKmax kmax = true → Inv (State.resetFor kmax)) ∧
  ∀ s t : State, Inv s → step s = .next t → Inv t

/-- The model's own representation invariant, log 6: the cells a unit with a smaller `KMAX` does not have hold 0 after
reset, and every step from a state of R25 keeps that. -/
def Obligations.CellsBeyondCapStayZero : Prop :=
  (∀ kmax, CellsBeyondCap (State.resetFor kmax)) ∧
  ∀ s t : State, Inv s → CellsBeyondCap s → step s = .next t → CellsBeyondCap t

/-- Stale content is never observable (spec/93_implementation_defined.md U10): two states that differ only in it send
the same symbols and responses in every step and still differ only in it afterwards. -/
def Obligations.StaleContentUnobservable : Prop :=
  ∀ s t s' : State, Inv s → Inv t → SameObservable s t → step s = .next s' →
    ∃ t', step t = .next t' ∧ SameObservable s' t' ∧ t'.out = s'.out

/-- R42, last derived sentence: sending the same accepted `SETKD`, `SETLD`, `LDK` or `LDL` twice leaves the state that
sending it once leaves, but for the second response. -/
def Obligations.KeyLoadIsIdempotent : Prop :=
  ∀ (i : Instr) (s : State), isKeyLoad i = true → s.mode = .idle → operandsLegal s i = true →
    ∃ t r, exec i s = .next t ∧ exec i t = .next { t with out := t.out ++ [.response r] } ∧
      t.out = s.out ++ [.response r]

/-- R173: while a session is open no command word changes the key, the shift or a dimension: `SETKD`, `SETLD`, `LDK`
and `LDL` are refused and the commands of a session do not write them. A host that needs another key ends the session
first: after `END` the mode is `IDLE`. -/
def Obligations.KeyIsFixedDuringASession : Prop :=
  ∀ (s : State) (w : CmdWord) (rest : List HostMove), s.cmd = .word w :: rest → s.mode ≠ .idle →
    ∃ t, step s = .next t ∧ t.km = s.km ∧ t.sv = s.sv ∧ t.kdim = s.kdim ∧ t.ldim = s.ldim ∧
      (∀ i, decode w = .ok i → isKeyLoad i = true →
        t = { s with cmd := rest, err := .illegalCommand, out := s.out ++ [.response 0x50000000] }) ∧
      (decode w = .ok .endText → t.mode = .idle)

/-- R11, R12: a computation reads `KM` and `SV` below `KDIM` only. Whatever else they hold, `CHK`, `INV`, `ENCB`,
`DECB`, `PUT` and `END` write and send the same. -/
def Obligations.OnlyTheKeyPartIsRead : Prop :=
  ∀ (i : Instr) (s : State) (m : Mat) (v : Vec),
    i = .chk ∨ i = .inv ∨ i = .encb ∨ i = .decb ∨ (∃ c, i = .put c) ∨ i = .endText →
    (∀ a < s.kdim, ∀ b < s.kdim, Mat.get m a b = Mat.get s.km a b) → (∀ a < s.kdim, Vec.get v a = Vec.get s.sv a) →
    ∃ t, exec i s = .next t ∧ exec i { s with km := m, sv := v } = .next { t with km := m, sv := v }

/-- R74: accepted `SETKD`, `SETLD`, `LDK`, `LDL` commands leave each dimension and element at the last value written to
it, whatever the order among different targets, and the flags clear if one of them is `SETKD` or `LDK`. -/
def Obligations.KeyLoadOrderIndependence : Prop :=
  ∀ (is : List Instr) (s : State), s.mode = .idle → s.cap ≤ 16 →
    (∀ i ∈ is, isKeyLoad i = true ∧ operandsLegal s i = true) →
    ∃ t, execList is s = .next t ∧
      t.kdim = (is.filterMap fun i => match i with | .setkd k => some k | _ => none).getLastD s.kdim ∧
      t.ldim = (is.filterMap fun i => match i with | .setld k => some k | _ => none).getLastD s.ldim ∧
      (∀ a b, Mat.get t.km a b = (is.filterMap fun i =>
        match i with | .ldk x y v => if x = a ∧ y = b then some (mod26 v) else none | _ => none).getLastD
          (Mat.get s.km a b)) ∧
      (∀ a, Vec.get t.sv a = (is.filterMap fun i =>
        match i with | .ldl x v => if x = a then some (mod26 v) else none | _ => none).getLastD (Vec.get s.sv a)) ∧
      ((∃ i ∈ is, (∃ k, i = .setkd k) ∨ ∃ a b v, i = .ldk a b v) →
        t.detv = false ∧ t.unit = false ∧ t.kiv = false)

/-! ### The arithmetic -/

/-- R5: `mod26(x)` is the only `r` from 0 to 25 with `x - r` divisible by 26; the examples of R5. -/
def Obligations.Mod26IsFloorModulo : Prop :=
  (∀ x : Int, 0 ≤ resVal (mod26 x) ∧ resVal (mod26 x) ≤ 25 ∧ (26 : Int) ∣ x - resVal (mod26 x) ∧
    ∀ r : Int, 0 ≤ r → r ≤ 25 → (26 : Int) ∣ x - r → r = resVal (mod26 x)) ∧
  mod26 (-1) = 25 ∧ mod26 26 = 0 ∧ mod26 (-26) = 0 ∧ mod26 107 = 3 ∧ mod26 (-9) = 17

/-- R80 and R84: `gcd(d, 26)` for the residues, the units modulo 26 are the integers coprime to 26, `inv26` is their
only inverse, and its table. -/
def Obligations.UnitsHaveOneInverse : Prop :=
  (∀ d : Residue, Nat.gcd d.val 26 =
    if d = 0 then 26 else if d = 13 then 13 else if d.val % 2 = 0 then 2 else 1) ∧
  (∀ x : Int, (isUnit26 (mod26 x) = true ↔ Int.gcd x 26 = 1) ∧
    (isUnit26 (mod26 x) = true → x * resVal (inv26 (mod26 x)) % 26 = 1 ∧
      ∀ y : Residue, x * resVal y % 26 = 1 → y = inv26 (mod26 x))) ∧
  [1, 3, 5, 7, 9, 11, 15, 17, 19, 21, 23, 25].map inv26 = [1, 9, 21, 15, 3, 19, 7, 23, 11, 5, 17, 25]

/-- R82: cofactor expansion along row 0 is the determinant. -/
def Obligations.DeterminantIsExact : Prop :=
  ∀ (k : Nat) (M : IntMatrix), det k M = (Matrix.of fun i j : Fin k => M i j).det

/-- R83: `M * adj(M) = adj(M) * M = det(M) * I` over the integers. -/
def Obligations.AdjugateIdentity : Prop :=
  ∀ (k : Nat) (M : IntMatrix) (i j : Nat), i < k → j < k →
    (sumTo k fun l => M i l * adj k M l j) = (if i = j then det k M else 0) ∧
    (sumTo k fun l => adj k M i l * M l j) = (if i = j then det k M else 0)

/-- R88: entries that agree modulo 26 give the same determinant, adjugate and inverse modulo 26, so reducing early
changes no result. -/
def Obligations.EarlyReductionChangesNothing : Prop :=
  ∀ (k : Nat) (M N : IntMatrix), (∀ i < k, ∀ j < k, mod26 (M i j) = mod26 (N i j)) →
    mod26 (det k M) = mod26 (det k N) ∧
    (∀ i < k, ∀ j < k, mod26 (adj k M i j) = mod26 (adj k N i j)) ∧
    (∀ i < k, ∀ j < k, inverseEntry k M i j = inverseEntry k N i j)

/-- R85: `isInvertibleMod26` is "some matrix of residues is an inverse", and `inverseMod26` returns the only one. -/
def Obligations.InverseIsTheOnlyOne : Prop :=
  ∀ (k : Nat) (M : IntMatrix), 1 ≤ k →
    (∀ R, inverseMod26 k M = some R → ∀ i < k, ∀ j < k,
      mod26 (sumTo k fun l => M i l * resVal (R l j)) = (if i = j then 1 else 0) ∧
      mod26 (sumTo k fun l => resVal (R i l) * M l j) = (if i = j then 1 else 0)) ∧
    (∀ Q : Nat → Nat → Residue,
      (∀ i < k, ∀ j < k, mod26 (sumTo k fun l => M i l * resVal (Q l j)) = if i = j then 1 else 0) →
      ∃ R, inverseMod26 k M = some R ∧ ∀ i < k, ∀ j < k, Q i j = R i j)

/-- R92 on the unit: after `CHK`, `UNIT = 1` exactly when some matrix of residues inverts the key, and after an `INV`
that succeeds `KI` inverts it on both sides. -/
def Obligations.InvertibilityGate : Prop :=
  ∀ s : State, s.mode = .idle → 1 ≤ s.kdim → s.kdim ≤ 16 →
    (∃ t, exec .chk s = .next t ∧ (t.unit = true ↔ ∃ R : Nat → Nat → Residue, ∀ i < s.kdim, ∀ j < s.kdim,
      mod26 (sumTo s.kdim fun l => resVal (Mat.get s.km i l) * resVal (R l j)) = if i = j then 1 else 0)) ∧
    (∃ t, exec .inv s = .next t ∧ (t.err = .success → ∀ i < s.kdim, ∀ j < s.kdim,
      mod26 (sumTo s.kdim fun l => resVal (Mat.get s.km i l) * resVal (Mat.get t.ki l j)) = (if i = j then 1 else 0) ∧
      mod26 (sumTo s.kdim fun l => resVal (Mat.get t.ki i l) * resVal (Mat.get s.km l j)) = (if i = j then 1 else 0)))

/-- R86: when `KIV = 1` already, `compute_inverse()` changes nothing, so an implementation may skip it. -/
def Obligations.RecomputationMayBeSkipped : Prop :=
  ∀ s : State, Inv s → s.kiv = true → computeInverse s = s

/-! ### The codec, texts and sessions -/

/-- R101 and R102: a lowercase letter has the residue `c - 0x61`, any other code has none, and the two mappings are
inverse to each other. -/
def Obligations.CodecRoundTrip : Prop :=
  (∀ c : Nat, 0x61 ≤ c → c ≤ 0x7A → ∃ r, toResidue c = some r ∧ r.val = c - 0x61 ∧ (toSymbol r).toNat = c) ∧
  (∀ c : Nat, c < 0x61 ∨ 0x7A < c → toResidue c = none) ∧
  ∀ r : Residue, toResidue (toSymbol r).toNat = some r

/-- R111 and R106, and conflict C2 of spec/90_conflicts.md: storing `Lnew` reduced gives the blocks that the unreduced
sum gives, and they are the reduced product of `Kinv` with the block minus the shift. -/
def Obligations.ReducingTheShiftEarlyChangesNoBlock : Prop :=
  ∀ (k : Nat) (Ki : Nat → Nat → Residue) (L c : Nat → Residue),
    (decblock k Ki (transformedShift k Ki L) c = (List.range k).map fun i =>
      mod26 (sumTo k (fun j => resVal (Ki i j) * resVal (c j)) - sumTo k fun j => resVal (Ki i j) * resVal (L j))) ∧
    (decblock k Ki (transformedShift k Ki L) c = (List.range k).map fun i =>
      mod26 (sumTo k fun j => resVal (Ki i j) * (resVal (c j) - resVal (L j))))

/-- R122, the functions: decrypting an encryption gives the padded text, for every invertible key, every shift of the
key's dimension and every text; and R103: a shift of another dimension fails both functions with
`DimensionMismatch`. -/
def Obligations.DecryptUndoesEncrypt : Prop :=
  ∀ (k : Nat) (K : Nat → Nat → Residue) (L t : List Residue), 1 ≤ k → isInvertibleMod26 k (intMatrix K) = true →
    (L.length = k → ∃ c, encrypt k K L t = .ok c ∧ decrypt k K L c = .ok (pad k t)) ∧
    (L.length ≠ k → encrypt k K L t = .error .dimensionMismatch ∧
      ∀ c, decrypt k K L c = .error .dimensionMismatch)

/-- R121 items 1 and 4: an encrypt session over a text of letters sends exactly the symbols of `encrypt` of R103,
`KDIM` times the number of blocks, every response a success, and leaves `IDLE`, `CNT = 0` and the key, the shift and
the dimensions unchanged. -/
def Obligations.EncryptSessionComputesEncrypt : Prop :=
  ∀ (s : State) (t : List Residue) (rest : List HostMove),
    Inv s → s.mode = .idle → s.ldim = s.kdim →
    s.cmd = asMoves (expandEncrypt (t.map fun r => 0x61 + r.val)) ++ rest →
    ∃ u c, Host.Core.run Sys2Proof.core (t.length + 2) s = .next u ∧
      encrypt s.kdim (Mat.get s.km) (shiftVector s) t = .ok c ∧
      symbolsOf u.out = symbolsOf s.out ++ c.map toSymbol ∧
      c.length = s.kdim * ((t.length + s.kdim - 1) / s.kdim) ∧
      (∃ rs, responsesOf u.out = responsesOf s.out ++ rs ∧ rs.length = t.length + 2 ∧ ∀ w ∈ rs, w.toNat / 2 ^ 28 = 0) ∧
      u.mode = .idle ∧ u.cnt = 0 ∧ u.err = .success ∧ u.cmd = rest ∧
      u.km = s.km ∧ u.sv = s.sv ∧ u.kdim = s.kdim ∧ u.ldim = s.ldim

/-- R121 items 2 and 4: a decrypt session fails at `DECB` with `NotInvertible` if the key has no inverse; otherwise it
fails at `END` with `DimensionMismatch` if the length of the text is no multiple of `KDIM`; otherwise it sends exactly
the symbols of `decrypt` of R103. In every case it leaves `IDLE`, `CNT = 0` and key, shift and dimensions unchanged. -/
def Obligations.DecryptSessionComputesDecrypt : Prop :=
  ∀ (s : State) (t : List Residue) (rest : List HostMove),
    Inv s → s.mode = .idle → s.ldim = s.kdim →
    s.cmd = asMoves (expandDecrypt (t.map fun r => 0x61 + r.val)) ++ rest →
    ∃ u, Host.Core.run Sys2Proof.core (t.length + 2) s = .next u ∧
      u.mode = .idle ∧ u.cnt = 0 ∧ u.cmd = rest ∧
      u.km = s.km ∧ u.sv = s.sv ∧ u.kdim = s.kdim ∧ u.ldim = s.ldim ∧
      (decrypt s.kdim (Mat.get s.km) (shiftVector s) t = .error .notInvertible →
        symbolsOf u.out = symbolsOf s.out ∧
        responsesOf u.out = responsesOf s.out ++ 0x20000000 :: List.replicate (t.length + 1) 0x50000000) ∧
      (decrypt s.kdim (Mat.get s.km) (shiftVector s) t = .error .dimensionMismatch →
        u.err = .dimensionMismatch ∧ (responsesOf u.out).getLast? = some 0x30000000) ∧
      (∀ p, decrypt s.kdim (Mat.get s.km) (shiftVector s) t = .ok p →
        symbolsOf u.out = symbolsOf s.out ++ p.map toSymbol ∧ u.err = .success ∧
        (responsesOf u.out).getLast? = some 0x00000000)

/-- R121, the letters: whichever session is open, the first code that is no letter is answered `InvalidSymbol`, ends
the session and is followed by refusals, one by one, that change nothing but `ERR` (R120). -/
def Obligations.FirstBadLetterEndsTheSession : Prop :=
  ∀ (s : State) (good : List Residue) (c : Nat) (more : List Nat) (rest : List HostMove),
    Inv s → s.mode ≠ .idle → (c < 0x61 ∨ 0x7A < c) → c < 65536 → (∀ x ∈ more, x < 65536) →
    s.cmd = asMoves (expandText (good.map fun r => 0x61 + r.val) ++ .put c :: expandText more ++ [.endText]) ++ rest →
    ∃ u v, Host.Core.run Sys2Proof.core (good.length + 1) s = .next u ∧
      u.mode = .idle ∧ u.cnt = 0 ∧ u.err = .invalidSymbol ∧ (responsesOf u.out).getLast? = some 0x10000000 ∧
      (symbolsOf u.out).length = (symbolsOf s.out).length + s.kdim * ((s.cnt + good.length) / s.kdim) ∧
      Host.Core.run Sys2Proof.core (more.length + 1) u = .next v ∧
      v = { u with cmd := rest, err := .illegalCommand,
                   out := u.out ++ List.replicate (more.length + 1) (.response 0x50000000) } ∧
      v.km = s.km ∧ v.sv = s.sv ∧ v.kdim = s.kdim ∧ v.ldim = s.ldim

/-- R121 item 3: with `LDIM` different from `KDIM` neither sequence opens a session: `ENCB` answers
`DimensionMismatch`, `DECB` answers `NotInvertible` if the key has no inverse and `DimensionMismatch` otherwise, and
every `PUT` and the `END` that follow are refused. `encrypt` and `decrypt` of R103 fail with the same errors on the
declared shift, whatever the text. -/
def Obligations.MismatchedDimensionsOpenNoSession : Prop :=
  ∀ (s : State) (codes : List Nat) (rest : List HostMove),
    Inv s → s.mode = .idle → s.ldim ≠ s.kdim → (∀ c ∈ codes, c < 65536) →
    (∀ t, encrypt s.kdim (Mat.get s.km) (shiftVector s) t = .error .dimensionMismatch ∧
      decrypt s.kdim (Mat.get s.km) (shiftVector s) t =
        .error (if isInvertibleMod26 s.kdim (keyMatrix s) then .dimensionMismatch else .notInvertible)) ∧
    (s.cmd = asMoves (expandEncrypt codes) ++ rest →
      Host.Core.run Sys2Proof.core (codes.length + 2) s = .next { s with
        cmd := rest, err := .illegalCommand,
        out := s.out ++ .response 0x30000000 :: List.replicate (codes.length + 1) (.response 0x50000000) }) ∧
    (s.cmd = asMoves (expandDecrypt codes) ++ rest →
      ∃ u, Host.Core.run Sys2Proof.core (codes.length + 2) s = .next u ∧ u.mode = .idle ∧ u.cnt = 0 ∧
        u.km = s.km ∧ u.sv = s.sv ∧ u.kdim = s.kdim ∧ u.ldim = s.ldim ∧
        u.out = s.out ++ .response (if isInvertibleMod26 s.kdim (keyMatrix s) then 0x30000000 else 0x20000000) ::
          List.replicate (codes.length + 1) (.response 0x50000000))

/-- R122 on the unit: with an invertible key and equal dimensions, an encrypt session of a text followed by a decrypt
session of what it sent sends the padded text. -/
def Obligations.SessionsRoundTrip : Prop :=
  ∀ (s : State) (t c : List Residue) (rest : List HostMove),
    Inv s → s.mode = .idle → s.ldim = s.kdim → isInvertibleMod26 s.kdim (keyMatrix s) = true →
    encrypt s.kdim (Mat.get s.km) (shiftVector s) t = .ok c →
    s.cmd = asMoves (expandEncrypt (t.map fun r => 0x61 + r.val) ++ expandDecrypt (c.map fun r => 0x61 + r.val)) ++ rest →
    ∃ u v, Host.Core.run Sys2Proof.core (t.length + 2) s = .next u ∧
      symbolsOf u.out = symbolsOf s.out ++ c.map toSymbol ∧
      Host.Core.run Sys2Proof.core (c.length + 2) u = .next v ∧
      symbolsOf v.out = symbolsOf u.out ++ (pad s.kdim t).map toSymbol ∧ v.err = .success ∧ v.mode = .idle ∧
      v.cmd = rest

/-! ### The host's tools -/

/-- R59: from `IDLE` the expansions of `KEY` and `SHIFT`, with no more rows and numbers than `KMAX`, load the key and
the shift they spell, element by element, and the dimensions. -/
def Obligations.ExpansionsLoadKeyAndShift : Prop :=
  ∀ (rows : List (List Int)) (ns : List Int) (is : List Instr) (s : State),
    s.mode = .idle → s.cap ≤ 16 → 1 ≤ rows.length → rows.length ≤ s.cap → 1 ≤ ns.length → ns.length ≤ s.cap →
    expandKey rows = some is →
    ∃ t, execList (is ++ expandShift ns) s = .next t ∧ t.kdim = rows.length ∧ t.ldim = ns.length ∧
      (∀ i < rows.length, ∀ j < rows.length, Mat.get t.km i j = mod26 ((rows.getD i []).getD j 0)) ∧
      (∀ i < ns.length, Vec.get t.sv i = mod26 (ns.getD i 0)) ∧
      t.mode = .idle ∧ t.detv = false ∧ t.unit = false ∧ t.kiv = false
end

