-- ==== Sys2Proof/Laws/Arith.lean ====
section
/-! SUPPORT. Sys2Proof/Laws/Arith.lean: `mod26`, sums and determinants: the small facts the rest cites. -/

namespace Sys2Proof.Machine

/-! ### Residues -/

/-- A residue is from 0 to 25. -/
theorem resVal_range (r : Residue) : 0 ≤ resVal r ∧ resVal r ≤ 25 := by
  have := r.isLt
  simp only [resVal]; omega

/-- The integer of `mod26 x` is the floor remainder (spec/00_scope.md R5). -/
theorem resVal_mod26 (x : Int) : resVal (mod26 x) = x % 26 := by
  have h0 := Int.emod_nonneg x (by decide : (26 : Int) ≠ 0)
  have h1 := Int.emod_lt_of_pos x (by decide : (0 : Int) < 26)
  simp only [resVal, mod26, Fin.val_ofNat]
  rw [Nat.mod_eq_of_lt (by omega)]
  omega

theorem resVal_inj {a b : Residue} (h : resVal a = resVal b) : a = b := by
  apply Fin.ext
  simpa [resVal] using h

/-- `mod26` identifies exactly the integers that differ by a multiple of 26 (spec/00_scope.md R5). -/
theorem mod26_eq_iff (x y : Int) : mod26 x = mod26 y ↔ x % 26 = y % 26 := by
  rw [← resVal_mod26 x, ← resVal_mod26 y]
  exact ⟨fun h => by rw [h], resVal_inj⟩

@[simp] theorem mod26_resVal (r : Residue) : mod26 (resVal r) = r := by
  apply resVal_inj
  rw [resVal_mod26]
  have := resVal_range r
  omega

theorem mod26_eq_of_emod {x : Int} {r : Residue} (h : x % 26 = resVal r) : mod26 x = r := by
  apply resVal_inj
  rw [resVal_mod26, h]

/-! ### Sums -/

@[simp] theorem sumTo_zero (f : Nat → Int) : sumTo 0 f = 0 := rfl

theorem sumTo_succ (k : Nat) (f : Nat → Int) : sumTo (k + 1) f = sumTo k f + f k := rfl

/-- `sumTo` is the sum over a range of the library. -/
theorem sumTo_eq_sum (k : Nat) (f : Nat → Int) : sumTo k f = ∑ j ∈ Finset.range k, f j := by
  induction k with
  | zero => rfl
  | succ k ih => rw [sumTo_succ, ih, Finset.sum_range_succ]

/-- A sum looks only at the terms below its bound. -/
theorem sumTo_congr {k : Nat} {f g : Nat → Int} (h : ∀ j < k, f j = g j) : sumTo k f = sumTo k g := by
  rw [sumTo_eq_sum, sumTo_eq_sum]
  exact Finset.sum_congr rfl fun j hj => h j (Finset.mem_range.mp hj)

/-! ### Determinants -/

theorem altSign_eq_pow (n : Nat) : altSign n = (-1) ^ n := by
  unfold altSign
  split
  · next h => rw [(Nat.even_iff.mpr h).neg_one_pow]
  · next h => rw [(Nat.odd_iff.mpr (by omega)).neg_one_pow]

/-- A determinant looks only at the entries below its dimension. -/
theorem det_congr {k : Nat} {M N : IntMatrix} (h : ∀ i < k, ∀ j < k, M i j = N i j) : det k M = det k N := by
  induction k generalizing M N with
  | zero => rfl
  | succ k ih =>
    apply sumTo_congr
    intro j hj
    rw [h 0 (Nat.succ_pos k) j hj, ih]
    intro a ha b hb
    simp only [minor, Nat.not_lt_zero, if_false]
    apply h (a + 1) (by omega)
    split <;> omega

/-- An entry of the adjugate looks only at the entries below the dimension. -/
theorem adj_congr {k : Nat} {M N : IntMatrix} (h : ∀ i < k, ∀ j < k, M i j = N i j) {i j : Nat} (hi : i < k)
    (hj : j < k) : adj k M i j = adj k N i j := by
  unfold adj
  congr 1
  apply det_congr
  intro a ha b hb
  simp only [minor]
  apply h
  · split <;> omega
  · split <;> omega

end Sys2Proof.Machine
end

