-- ==== Sys2Proof/Laws/Files.lean ====
section
/-! SUPPORT. Sys2Proof/Laws/Files.lean: reading a register file after a write to it. -/

namespace Sys2Proof.Machine

theorem tabulate_getD {α : Type} (f : Nat → α) (i : Nat) (d : α) :
    (tabulate f).getD i d = if i < 16 then f i else d := by
  simp only [tabulate, Vector.getD]
  by_cases h : i < 16 <;> simp [Array.getD, h]

/-- Beyond the sixteen cells a read gives 0. -/
theorem Vec.get_of_le (v : Vec) (i : Nat) (h : 16 ≤ i) : Vec.get v i = 0 := by
  simp [Vec.get, Vector.getD, Array.getD, Nat.not_lt.mpr h]

theorem Vec.get_eq (v : Vec) (i : Nat) (h : i < 16) : Vec.get v i = v[i] := by
  simp [Vec.get, Vector.getD, Array.getD, h]

/-- Two vector register files with equal elements are equal. -/
theorem Vec.ext (v w : Vec) (h : ∀ i < 16, Vec.get v i = Vec.get w i) : v = w := by
  apply Vector.ext
  intro i hi
  rw [← Vec.get_eq v i hi, ← Vec.get_eq w i hi, h i hi]

/-- Read after write of one element. -/
theorem Vec.get_set (v : Vec) (i j : Nat) (r : Residue) :
    Vec.get (Vec.set v i r) j = if j = i ∧ j < 16 then r else Vec.get v j := by
  by_cases hj : j < 16
  · rw [Vec.get_eq _ j hj, Vec.get_eq _ j hj]
    simp only [Vec.set, Vector.getElem_setIfInBounds, hj, and_true, eq_comm]
  · simp [Vec.get_of_le _ j (Nat.not_lt.mp hj), hj]

/-- Read after a run of writes. -/
theorem Vec.get_fill (v : Vec) (lo hi : Nat) (f : Nat → Residue) (i : Nat) :
    Vec.get (Vec.fill v lo hi f) i = if lo ≤ i ∧ i < hi ∧ i < 16 then f i else Vec.get v i := by
  by_cases h : i < 16
  · rw [Vec.get, Vec.fill, tabulate_getD, if_pos h]
    simp [h]
  · simp [Vec.get_of_le _ i (Nat.not_lt.mp h), h]

@[simp] theorem Vec.get_zeroVec (i : Nat) : Vec.get zeroVec i = 0 := by
  by_cases h : i < 16
  · rw [Vec.get_eq _ i h]; simp [zeroVec]
  · exact Vec.get_of_le _ i (Nat.not_lt.mp h)

/-- The row a matrix read looks at. -/
theorem Mat.row_eq (m : Mat) (i : Nat) (h : i < 16) : m.getD i zeroVec = m[i] := by
  simp [Vector.getD, Array.getD, h]

theorem Mat.get_of_row_le (m : Mat) (i j : Nat) (h : 16 ≤ i) : Mat.get m i j = 0 := by
  have : m.getD i zeroVec = zeroVec := by simp [Vector.getD, Array.getD, Nat.not_lt.mpr h]
  rw [Mat.get, this, Vec.get_zeroVec]

theorem Mat.get_of_col_le (m : Mat) (i j : Nat) (h : 16 ≤ j) : Mat.get m i j = 0 := Vec.get_of_le _ j h

/-- Two matrix register files with equal elements are equal. -/
theorem Mat.ext (m n : Mat) (h : ∀ i < 16, ∀ j < 16, Mat.get m i j = Mat.get n i j) : m = n := by
  apply Vector.ext
  intro i hi
  apply Vec.ext
  intro j hj
  have := h i hi j hj
  rwa [Mat.get, Mat.get, Mat.row_eq m i hi, Mat.row_eq n i hi] at this

/-- Read after write of one element. -/
theorem Mat.get_set (m : Mat) (i j a b : Nat) (r : Residue) :
    Mat.get (Mat.set m i j r) a b = if a = i ∧ b = j ∧ a < 16 ∧ b < 16 then r else Mat.get m a b := by
  by_cases ha : a < 16
  · rw [Mat.get, Mat.row_eq _ a ha, Mat.get, Mat.row_eq _ a ha]
    simp only [Mat.set, Vector.getElem_setIfInBounds]
    by_cases hia : i = a
    · subst hia
      rw [if_pos rfl, Vec.get_set, Mat.row_eq _ i ha]
      simp [ha]
    · rw [if_neg hia, if_neg (fun h => hia h.1.symm)]
  · simp [Mat.get_of_row_le _ a b (Nat.not_lt.mp ha), ha]

/-- Read after the inverse is stored. -/
theorem Mat.get_fill (m : Mat) (k : Nat) (f : Nat → Nat → Residue) (a b : Nat) :
    Mat.get (Mat.fill m k f) a b =
      if a < k ∧ b < k ∧ a < 16 ∧ b < 16 then f a b else Mat.get m a b := by
  by_cases ha : a < 16
  · by_cases hb : b < 16
    · rw [Mat.get, Mat.fill, tabulate_getD, if_pos ha, Vec.get, tabulate_getD, if_pos hb]
      simp [ha, hb]
    · simp [Mat.get_of_col_le _ a b (Nat.not_lt.mp hb), hb]
  · simp [Mat.get_of_row_le _ a b (Nat.not_lt.mp ha), ha]

@[simp] theorem Mat.get_zeroMat (i j : Nat) : Mat.get zeroMat i j = 0 := by
  by_cases h : i < 16
  · rw [Mat.get, Mat.row_eq _ i h]; simp [zeroMat]
  · exact Mat.get_of_row_le _ i j (Nat.not_lt.mp h)

end Sys2Proof.Machine
end

