-- ==== Sys2Proof/Laws/Encoding.lean ====
section
/-! SUPPORT. Sys2Proof/Laws/Encoding.lean: the fields of a word, and what the decoder does with them. -/

namespace Sys2Proof

/-- A concatenation as a number. -/
theorem toNat_concat {m n : Nat} (a : BitVec m) (b : BitVec n) : (a ++ b).toNat = a.toNat * 2 ^ n + b.toNat := by
  rw [BitVec.toNat_append, ← Nat.shiftLeft_add_eq_or_of_lt b.isLt, Nat.shiftLeft_eq]

/-- A bit field as a number. -/
theorem toNat_field (w : CmdWord) (s n : Nat) : (w.extractLsb' s n).toNat = w.toNat / 2 ^ s % 2 ^ n := by
  simp [BitVec.extractLsb'_toNat, Nat.shiftRight_eq_div_pow]

/-- A word as a number (spec/30_encoding.md R50). -/
theorem toNat_assembleFields (f : Fields) :
    (assembleFields f).toNat = f.op.toNat * 2 ^ 24 + f.row.toNat * 2 ^ 20 + f.col.toNat * 2 ^ 16 + f.imm16.toNat := by
  have h1 : (assembleFields f).toNat = f.op.toNat * 2 ^ 24 + (f.row ++ (f.col ++ f.imm16)).toNat :=
    @toNat_concat 8 24 f.op (f.row ++ (f.col ++ f.imm16))
  have h2 : (f.row ++ (f.col ++ f.imm16)).toNat = f.row.toNat * 2 ^ 20 + (f.col ++ f.imm16).toNat :=
    @toNat_concat 4 20 f.row (f.col ++ f.imm16)
  have h3 : (f.col ++ f.imm16).toNat = f.col.toNat * 2 ^ 16 + f.imm16.toNat := @toNat_concat 4 16 f.col f.imm16
  rw [h1, h2, h3]
  ring

/-- Fields written are the fields read. -/
theorem fields_assembleFields (f : Fields) : fields (assembleFields f) = f := by
  have h := toNat_assembleFields f
  obtain ⟨op, row, col, imm⟩ := f
  have h1 := op.isLt
  have h2 := row.isLt
  have h3 := col.isLt
  have h4 := imm.isLt
  simp only at h
  simp only [fields, opField, Fields.mk.injEq]
  refine ⟨?_, ?_, ?_, ?_⟩ <;> apply BitVec.eq_of_toNat_eq <;> rw [toNat_field, h] <;> omega

/-- A word is the word of its fields. -/
theorem assembleFields_fields (w : CmdWord) : assembleFields (fields w) = w := by
  apply BitVec.eq_of_toNat_eq
  have := w.isLt
  rw [toNat_assembleFields]
  simp only [fields, opField, toNat_field]
  omega

theorem assembleFields_inj {f g : Fields} (h : assembleFields f = assembleFields g) : f = g := by
  rw [← fields_assembleFields f, h, fields_assembleFields]

/-- A mask acts field by field. -/
theorem assembleFields_and (f g : Fields) :
    assembleFields f &&& assembleFields g = assembleFields
      ⟨f.op &&& g.op, f.row &&& g.row, f.col &&& g.col, f.imm16 &&& g.imm16⟩ := by
  have h1 := @BitVec.and_append 8 24 f.op g.op (f.row ++ (f.col ++ f.imm16)) (g.row ++ (g.col ++ g.imm16))
  have h2 := @BitVec.and_append 4 20 f.row g.row (f.col ++ f.imm16) (g.col ++ g.imm16)
  have h3 := @BitVec.and_append 4 16 f.col g.col f.imm16 g.imm16
  exact h1.trans (congrArg (fun x : BitVec 24 => (f.op &&& g.op) ++ x)
    (h2.trans (congrArg (fun x : BitVec 20 => (f.row &&& g.row) ++ x) h3)))

/-- A row's test, field by field. -/
theorem masked_iff (f m b : Fields) : (assembleFields f &&& assembleFields m = assembleFields b) ↔
    (f.op &&& m.op = b.op ∧ f.row &&& m.row = b.row ∧ f.col &&& m.col = b.col ∧ f.imm16 &&& m.imm16 = b.imm16) := by
  rw [assembleFields_and]
  constructor
  · intro h
    have := assembleFields_inj h
    subst this
    exact ⟨rfl, rfl, rfl, rfl⟩
  · rintro ⟨h1, h2, h3, h4⟩
    rw [h1, h2, h3, h4]


/-- The test of a row on the fields of a word. -/
theorem accepts_fields (r : OpcodeRow) (f m b : Fields) (hm : fields r.mask = m) (hb : fields r.matchBits = b) :
    r.accepts (assembleFields f) = decide (f.op &&& m.op = b.op ∧ f.row &&& m.row = b.row ∧ f.col &&& m.col = b.col ∧
      f.imm16 &&& m.imm16 = b.imm16) := by
  subst hm hb
  have := masked_iff f (fields r.mask) (fields r.matchBits)
  rw [assembleFields_fields, assembleFields_fields] at this
  rw [← decide_eq_decide.mpr this]
  rfl

theorem and_ff (x : BitVec 8) : x &&& 255#8 = x := BitVec.and_allOnes

theorem and_f (x : BitVec 4) : x &&& 15#4 = x := BitVec.and_allOnes

theorem and_ffff (x : BitVec 16) : x &&& 65535#16 = x := BitVec.and_allOnes

/-- The tests of the eleven rows of spec/30_encoding.md R52 on the fields of a word. -/
theorem table_accepts (f : Fields) : opcodeTable.map (fun r => r.accepts (assembleFields f)) =
    [decide (f.op = 0x10 ∧ f.row = 0 ∧ f.col = 0), decide (f.op = 0x11 ∧ f.row = 0 ∧ f.col = 0),
     decide (f.op = 0x12), decide (f.op = 0x13 ∧ f.col = 0),
     decide (f.op = 0x20 ∧ f.row = 0 ∧ f.col = 0 ∧ f.imm16 = 0),
     decide (f.op = 0x21 ∧ f.row = 0 ∧ f.col = 0 ∧ f.imm16 = 0),
     decide (f.op = 0x30 ∧ f.row = 0 ∧ f.col = 0 ∧ f.imm16 = 0),
     decide (f.op = 0x31 ∧ f.row = 0 ∧ f.col = 0 ∧ f.imm16 = 0),
     decide (f.op = 0x32 ∧ f.row = 0 ∧ f.col = 0),
     decide (f.op = 0x33 ∧ f.row = 0 ∧ f.col = 0 ∧ f.imm16 = 0), decide (f.op = 0x40)] := by
  simp only [opcodeTable, List.map_cons, List.map_nil, List.cons.injEq, and_true]
  refine ⟨?_, ?_, ?_, ?_, ?_, ?_, ?_, ?_, ?_, ?_, ?_⟩
  · rw [accepts_fields _ f ⟨255, 15, 15, 0⟩ ⟨0x10, 0, 0, 0⟩ (by decide) (by decide)]
    simp [and_ff, and_f]
  · rw [accepts_fields _ f ⟨255, 15, 15, 0⟩ ⟨0x11, 0, 0, 0⟩ (by decide) (by decide)]
    simp [and_ff, and_f]
  · rw [accepts_fields _ f ⟨255, 0, 0, 0⟩ ⟨0x12, 0, 0, 0⟩ (by decide) (by decide)]
    simp [and_ff]
  · rw [accepts_fields _ f ⟨255, 0, 15, 0⟩ ⟨0x13, 0, 0, 0⟩ (by decide) (by decide)]
    simp [and_ff, and_f]
  · rw [accepts_fields _ f ⟨255, 15, 15, 65535⟩ ⟨0x20, 0, 0, 0⟩ (by decide) (by decide)]
    simp [and_ff, and_f, and_ffff]
  · rw [accepts_fields _ f ⟨255, 15, 15, 65535⟩ ⟨0x21, 0, 0, 0⟩ (by decide) (by decide)]
    simp [and_ff, and_f, and_ffff]
  · rw [accepts_fields _ f ⟨255, 15, 15, 65535⟩ ⟨0x30, 0, 0, 0⟩ (by decide) (by decide)]
    simp [and_ff, and_f, and_ffff]
  · rw [accepts_fields _ f ⟨255, 15, 15, 65535⟩ ⟨0x31, 0, 0, 0⟩ (by decide) (by decide)]
    simp [and_ff, and_f, and_ffff]
  · rw [accepts_fields _ f ⟨255, 15, 15, 0⟩ ⟨0x32, 0, 0, 0⟩ (by decide) (by decide)]
    simp [and_ff, and_f]
  · rw [accepts_fields _ f ⟨255, 15, 15, 65535⟩ ⟨0x33, 0, 0, 0⟩ (by decide) (by decide)]
    simp [and_ff, and_f, and_ffff]
  · rw [accepts_fields _ f ⟨255, 0, 0, 0⟩ ⟨0x40, 0, 0, 0⟩ (by decide) (by decide)]
    simp [and_ff]

theorem assignedOpcode_iff (op : BitVec 8) : assignedOpcode op = true ↔
    op ∈ [0x10#8, 0x11#8, 0x12#8, 0x13#8, 0x20#8, 0x21#8, 0x30#8, 0x31#8, 0x32#8, 0x33#8, 0x40#8] := by
  revert op
  decide

/-- What the decoder does, by the fields of the word. -/
theorem decode_assembleFields (f : Fields) : decode (assembleFields f) =
    if f.op = 0x10 then
      (if f.row = 0 ∧ f.col = 0 then .ok (.setkd f.imm16.toNat) else .error (.unusedFieldNotZero 0x10))
    else if f.op = 0x11 then
      (if f.row = 0 ∧ f.col = 0 then .ok (.setld f.imm16.toNat) else .error (.unusedFieldNotZero 0x11))
    else if f.op = 0x12 then .ok (.ldk f.row.toNat f.col.toNat (sext16 f.imm16))
    else if f.op = 0x13 then
      (if f.col = 0 then .ok (.ldl f.row.toNat (sext16 f.imm16)) else .error (.unusedFieldNotZero 0x13))
    else if f.op = 0x20 then
      (if f.row = 0 ∧ f.col = 0 ∧ f.imm16 = 0 then .ok .chk else .error (.unusedFieldNotZero 0x20))
    else if f.op = 0x21 then
      (if f.row = 0 ∧ f.col = 0 ∧ f.imm16 = 0 then .ok .inv else .error (.unusedFieldNotZero 0x21))
    else if f.op = 0x30 then
      (if f.row = 0 ∧ f.col = 0 ∧ f.imm16 = 0 then .ok .encb else .error (.unusedFieldNotZero 0x30))
    else if f.op = 0x31 then
      (if f.row = 0 ∧ f.col = 0 ∧ f.imm16 = 0 then .ok .decb else .error (.unusedFieldNotZero 0x31))
    else if f.op = 0x32 then
      (if f.row = 0 ∧ f.col = 0 then .ok (.put f.imm16.toNat) else .error (.unusedFieldNotZero 0x32))
    else if f.op = 0x33 then
      (if f.row = 0 ∧ f.col = 0 ∧ f.imm16 = 0 then .ok .endText else .error (.unusedFieldNotZero 0x33))
    else if f.op = 0x40 then .ok (.rd f.imm16.toNat f.row.toNat f.col.toNat)
    else .error (.unassignedOpcode f.op) := by
  have ht := table_accepts f
  have hr : rejectWord (assembleFields f) =
      if assignedOpcode f.op then .unusedFieldNotZero f.op else .unassignedOpcode f.op := by
    have : opField (assembleFields f) = f.op := congrArg Fields.op (fields_assembleFields f)
    simp only [rejectWord, this]
  have ha := assignedOpcode_iff f.op
  simp only [opcodeTable, List.map_cons, List.map_nil, List.cons.injEq, and_true] at ht
  obtain ⟨h1, h2, h3, h4, h5, h6, h7, h8, h9, h10, h11⟩ := ht
  simp only [decode, hr, fields_assembleFields, opcodeTable, List.find?_cons, List.find?_nil,
    h1, h2, h3, h4, h5, h6, h7, h8, h9, h10, h11]
  obtain ⟨op, row, col, imm⟩ := f
  simp only [List.mem_cons, List.not_mem_nil, or_false] at ha
  dsimp only at ha ⊢
  clear h1 h2 h3 h4 h5 h6 h7 h8 h9 h10 h11 hr
  by_cases o0 : op = 0x10#8
  · subst o0
    have ha' : assignedOpcode 0x10#8 = true := by decide
    clear ha
    by_cases r : row = 0#4 <;> by_cases c : col = 0#4 <;> by_cases m : imm = 0#16 <;> simp [r, c, m, ha']
  by_cases o1 : op = 0x11#8
  · subst o1
    have ha' : assignedOpcode 0x11#8 = true := by decide
    clear ha
    by_cases r : row = 0#4 <;> by_cases c : col = 0#4 <;> by_cases m : imm = 0#16 <;> simp [r, c, m, ha']
  by_cases o2 : op = 0x12#8
  · subst o2
    have ha' : assignedOpcode 0x12#8 = true := by decide
    clear ha
    by_cases r : row = 0#4 <;> by_cases c : col = 0#4 <;> by_cases m : imm = 0#16 <;> simp [r, c, m]
  by_cases o3 : op = 0x13#8
  · subst o3
    have ha' : assignedOpcode 0x13#8 = true := by decide
    clear ha
    by_cases r : row = 0#4 <;> by_cases c : col = 0#4 <;> by_cases m : imm = 0#16 <;> simp [r, c, m, ha']
  by_cases o4 : op = 0x20#8
  · subst o4
    have ha' : assignedOpcode 0x20#8 = true := by decide
    clear ha
    by_cases r : row = 0#4 <;> by_cases c : col = 0#4 <;> by_cases m : imm = 0#16 <;> simp [r, c, m, ha']
  by_cases o5 : op = 0x21#8
  · subst o5
    have ha' : assignedOpcode 0x21#8 = true := by decide
    clear ha
    by_cases r : row = 0#4 <;> by_cases c : col = 0#4 <;> by_cases m : imm = 0#16 <;> simp [r, c, m, ha']
  by_cases o6 : op = 0x30#8
  · subst o6
    have ha' : assignedOpcode 0x30#8 = true := by decide
    clear ha
    by_cases r : row = 0#4 <;> by_cases c : col = 0#4 <;> by_cases m : imm = 0#16 <;> simp [r, c, m, ha']
  by_cases o7 : op = 0x31#8
  · subst o7
    have ha' : assignedOpcode 0x31#8 = true := by decide
    clear ha
    by_cases r : row = 0#4 <;> by_cases c : col = 0#4 <;> by_cases m : imm = 0#16 <;> simp [r, c, m, ha']
  by_cases o8 : op = 0x32#8
  · subst o8
    have ha' : assignedOpcode 0x32#8 = true := by decide
    clear ha
    by_cases r : row = 0#4 <;> by_cases c : col = 0#4 <;> by_cases m : imm = 0#16 <;> simp [r, c, m, ha']
  by_cases o9 : op = 0x33#8
  · subst o9
    have ha' : assignedOpcode 0x33#8 = true := by decide
    clear ha
    by_cases r : row = 0#4 <;> by_cases c : col = 0#4 <;> by_cases m : imm = 0#16 <;> simp [r, c, m, ha']
  by_cases o10 : op = 0x40#8
  · subst o10
    have ha' : assignedOpcode 0x40#8 = true := by decide
    clear ha
    by_cases r : row = 0#4 <;> by_cases c : col = 0#4 <;> by_cases m : imm = 0#16 <;> simp [r, c, m]
  have hn : assignedOpcode op = false := by
    by_contra hc
    have := ha.mp (by simpa using hc)
    tauto
  simp [hn, o0, o1, o2, o3, o4, o5, o6, o7, o8, o9, o10]

end Sys2Proof
end

