-- ==== Sys2Proof/Laws/Operands.lean ====
section
/-! SUPPORT. Sys2Proof/Laws/Operands.lean: operand ranges as propositions, and response words as numbers. -/

namespace Sys2Proof.Machine

theorem legalDim_iff (k : Nat) (s : State) : legalDim k s = true ↔ 1 ≤ k ∧ k ≤ s.cap := by simp [legalDim]

theorem legalIndex_iff (n : Nat) (s : State) : legalIndex n s = true ↔ n < s.cap := by simp [legalIndex]

theorem isUnit26_iff (d : Residue) : isUnit26 d = true ↔ Nat.gcd d.val 26 = 1 := by simp [isUnit26]

/-- A successful response is its data as a number (spec/30_encoding.md R54). -/
theorem responseWord_success (n : Nat) (h : n < 65536) :
    responseWord .success (BitVec.ofNat 16 n) = BitVec.ofNat 32 n := by
  apply BitVec.eq_of_toNat_eq
  have h1 : (responseWord .success (BitVec.ofNat 16 n)).toNat =
      (0 : BitVec 4).toNat * 2 ^ 28 + ((0 : BitVec 12) ++ BitVec.ofNat 16 n).toNat :=
    @toNat_concat 4 28 0 ((0 : BitVec 12) ++ BitVec.ofNat 16 n)
  have h2 : ((0 : BitVec 12) ++ BitVec.ofNat 16 n).toNat = (0 : BitVec 12).toNat * 2 ^ 16 + (BitVec.ofNat 16 n).toNat :=
    @toNat_concat 12 16 0 (BitVec.ofNat 16 n)
  rw [h1, h2]
  simp
  omega

/-- The four error responses (spec/30_encoding.md R54, spec/60_exceptions.md R141). -/
theorem responseWord_invalidSymbol : responseWord .invalidSymbol 0#16 = 0x10000000#32 := by decide

theorem responseWord_notInvertible : responseWord .notInvertible 0#16 = 0x20000000#32 := by decide

theorem responseWord_dimensionMismatch : responseWord .dimensionMismatch 0#16 = 0x30000000#32 := by decide

theorem responseWord_illegalCommand : responseWord .illegalCommand 0#16 = 0x50000000#32 := by decide

end Sys2Proof.Machine
end

