-- ==== Sys2Proof/Laws/State.lean ====
section
/-! SUPPORT. Sys2Proof/Laws/State.lean: what each shared update does to each field of `State`, one lemma a field. -/

namespace Sys2Proof.Machine

/-! ### `respond` -/

@[simp] theorem respond_cap (e : ErrCode) (d : Data) (s : State) : (respond e d s).cap = s.cap := rfl
@[simp] theorem respond_km (e : ErrCode) (d : Data) (s : State) : (respond e d s).km = s.km := rfl
@[simp] theorem respond_sv (e : ErrCode) (d : Data) (s : State) : (respond e d s).sv = s.sv := rfl
@[simp] theorem respond_kdim (e : ErrCode) (d : Data) (s : State) : (respond e d s).kdim = s.kdim := rfl
@[simp] theorem respond_ldim (e : ErrCode) (d : Data) (s : State) : (respond e d s).ldim = s.ldim := rfl
@[simp] theorem respond_ki (e : ErrCode) (d : Data) (s : State) : (respond e d s).ki = s.ki := rfl
@[simp] theorem respond_ln (e : ErrCode) (d : Data) (s : State) : (respond e d s).ln = s.ln := rfl
@[simp] theorem respond_ib (e : ErrCode) (d : Data) (s : State) : (respond e d s).ib = s.ib := rfl
@[simp] theorem respond_cnt (e : ErrCode) (d : Data) (s : State) : (respond e d s).cnt = s.cnt := rfl
@[simp] theorem respond_mode (e : ErrCode) (d : Data) (s : State) : (respond e d s).mode = s.mode := rfl
@[simp] theorem respond_err (e : ErrCode) (d : Data) (s : State) : (respond e d s).err = s.err := rfl
@[simp] theorem respond_det (e : ErrCode) (d : Data) (s : State) : (respond e d s).det = s.det := rfl
@[simp] theorem respond_detv (e : ErrCode) (d : Data) (s : State) : (respond e d s).detv = s.detv := rfl
@[simp] theorem respond_unit (e : ErrCode) (d : Data) (s : State) : (respond e d s).unit = s.unit := rfl
@[simp] theorem respond_dinv (e : ErrCode) (d : Data) (s : State) : (respond e d s).dinv = s.dinv := rfl
@[simp] theorem respond_kiv (e : ErrCode) (d : Data) (s : State) : (respond e d s).kiv = s.kiv := rfl
@[simp] theorem respond_cmd (e : ErrCode) (d : Data) (s : State) : (respond e d s).cmd = s.cmd := rfl
@[simp] theorem respond_out (e : ErrCode) (d : Data) (s : State) : (respond e d s).out = s.out ++ [.response (responseWord e d)] := rfl

/-! ### `answer` -/

@[simp] theorem answer_cap (e : ErrCode) (d : Data) (s : State) : (answer e d s).cap = s.cap := rfl
@[simp] theorem answer_km (e : ErrCode) (d : Data) (s : State) : (answer e d s).km = s.km := rfl
@[simp] theorem answer_sv (e : ErrCode) (d : Data) (s : State) : (answer e d s).sv = s.sv := rfl
@[simp] theorem answer_kdim (e : ErrCode) (d : Data) (s : State) : (answer e d s).kdim = s.kdim := rfl
@[simp] theorem answer_ldim (e : ErrCode) (d : Data) (s : State) : (answer e d s).ldim = s.ldim := rfl
@[simp] theorem answer_ki (e : ErrCode) (d : Data) (s : State) : (answer e d s).ki = s.ki := rfl
@[simp] theorem answer_ln (e : ErrCode) (d : Data) (s : State) : (answer e d s).ln = s.ln := rfl
@[simp] theorem answer_ib (e : ErrCode) (d : Data) (s : State) : (answer e d s).ib = s.ib := rfl
@[simp] theorem answer_cnt (e : ErrCode) (d : Data) (s : State) : (answer e d s).cnt = s.cnt := rfl
@[simp] theorem answer_mode (e : ErrCode) (d : Data) (s : State) : (answer e d s).mode = s.mode := rfl
@[simp] theorem answer_err (e : ErrCode) (d : Data) (s : State) : (answer e d s).err = e := rfl
@[simp] theorem answer_det (e : ErrCode) (d : Data) (s : State) : (answer e d s).det = s.det := rfl
@[simp] theorem answer_detv (e : ErrCode) (d : Data) (s : State) : (answer e d s).detv = s.detv := rfl
@[simp] theorem answer_unit (e : ErrCode) (d : Data) (s : State) : (answer e d s).unit = s.unit := rfl
@[simp] theorem answer_dinv (e : ErrCode) (d : Data) (s : State) : (answer e d s).dinv = s.dinv := rfl
@[simp] theorem answer_kiv (e : ErrCode) (d : Data) (s : State) : (answer e d s).kiv = s.kiv := rfl
@[simp] theorem answer_cmd (e : ErrCode) (d : Data) (s : State) : (answer e d s).cmd = s.cmd := rfl
@[simp] theorem answer_out (e : ErrCode) (d : Data) (s : State) : (answer e d s).out = s.out ++ [.response (responseWord e d)] := rfl

/-! ### `succeed` -/

@[simp] theorem succeed_cap (n : Nat) (s : State) : (succeed n s).cap = s.cap := rfl
@[simp] theorem succeed_km (n : Nat) (s : State) : (succeed n s).km = s.km := rfl
@[simp] theorem succeed_sv (n : Nat) (s : State) : (succeed n s).sv = s.sv := rfl
@[simp] theorem succeed_kdim (n : Nat) (s : State) : (succeed n s).kdim = s.kdim := rfl
@[simp] theorem succeed_ldim (n : Nat) (s : State) : (succeed n s).ldim = s.ldim := rfl
@[simp] theorem succeed_ki (n : Nat) (s : State) : (succeed n s).ki = s.ki := rfl
@[simp] theorem succeed_ln (n : Nat) (s : State) : (succeed n s).ln = s.ln := rfl
@[simp] theorem succeed_ib (n : Nat) (s : State) : (succeed n s).ib = s.ib := rfl
@[simp] theorem succeed_cnt (n : Nat) (s : State) : (succeed n s).cnt = s.cnt := rfl
@[simp] theorem succeed_mode (n : Nat) (s : State) : (succeed n s).mode = s.mode := rfl
@[simp] theorem succeed_err (n : Nat) (s : State) : (succeed n s).err = .success := rfl
@[simp] theorem succeed_det (n : Nat) (s : State) : (succeed n s).det = s.det := rfl
@[simp] theorem succeed_detv (n : Nat) (s : State) : (succeed n s).detv = s.detv := rfl
@[simp] theorem succeed_unit (n : Nat) (s : State) : (succeed n s).unit = s.unit := rfl
@[simp] theorem succeed_dinv (n : Nat) (s : State) : (succeed n s).dinv = s.dinv := rfl
@[simp] theorem succeed_kiv (n : Nat) (s : State) : (succeed n s).kiv = s.kiv := rfl
@[simp] theorem succeed_cmd (n : Nat) (s : State) : (succeed n s).cmd = s.cmd := rfl
@[simp] theorem succeed_out (n : Nat) (s : State) : (succeed n s).out = s.out ++ [.response (responseWord .success (BitVec.ofNat 16 n))] := rfl

/-! ### `raise` -/

@[simp] theorem raise_cap (e : ErrCode) (s : State) : (raise e s).cap = s.cap := rfl
@[simp] theorem raise_km (e : ErrCode) (s : State) : (raise e s).km = s.km := rfl
@[simp] theorem raise_sv (e : ErrCode) (s : State) : (raise e s).sv = s.sv := rfl
@[simp] theorem raise_kdim (e : ErrCode) (s : State) : (raise e s).kdim = s.kdim := rfl
@[simp] theorem raise_ldim (e : ErrCode) (s : State) : (raise e s).ldim = s.ldim := rfl
@[simp] theorem raise_ki (e : ErrCode) (s : State) : (raise e s).ki = s.ki := rfl
@[simp] theorem raise_ln (e : ErrCode) (s : State) : (raise e s).ln = s.ln := rfl
@[simp] theorem raise_ib (e : ErrCode) (s : State) : (raise e s).ib = s.ib := rfl
@[simp] theorem raise_cnt (e : ErrCode) (s : State) : (raise e s).cnt = s.cnt := rfl
@[simp] theorem raise_mode (e : ErrCode) (s : State) : (raise e s).mode = s.mode := rfl
@[simp] theorem raise_err (e : ErrCode) (s : State) : (raise e s).err = e := rfl
@[simp] theorem raise_det (e : ErrCode) (s : State) : (raise e s).det = s.det := rfl
@[simp] theorem raise_detv (e : ErrCode) (s : State) : (raise e s).detv = s.detv := rfl
@[simp] theorem raise_unit (e : ErrCode) (s : State) : (raise e s).unit = s.unit := rfl
@[simp] theorem raise_dinv (e : ErrCode) (s : State) : (raise e s).dinv = s.dinv := rfl
@[simp] theorem raise_kiv (e : ErrCode) (s : State) : (raise e s).kiv = s.kiv := rfl
@[simp] theorem raise_cmd (e : ErrCode) (s : State) : (raise e s).cmd = s.cmd := rfl
@[simp] theorem raise_out (e : ErrCode) (s : State) : (raise e s).out = s.out ++ [.response (responseWord e 0)] := rfl

/-! ### `raiseInSession` -/

@[simp] theorem raiseInSession_cap (e : ErrCode) (s : State) : (raiseInSession e s).cap = s.cap := rfl
@[simp] theorem raiseInSession_km (e : ErrCode) (s : State) : (raiseInSession e s).km = s.km := rfl
@[simp] theorem raiseInSession_sv (e : ErrCode) (s : State) : (raiseInSession e s).sv = s.sv := rfl
@[simp] theorem raiseInSession_kdim (e : ErrCode) (s : State) : (raiseInSession e s).kdim = s.kdim := rfl
@[simp] theorem raiseInSession_ldim (e : ErrCode) (s : State) : (raiseInSession e s).ldim = s.ldim := rfl
@[simp] theorem raiseInSession_ki (e : ErrCode) (s : State) : (raiseInSession e s).ki = s.ki := rfl
@[simp] theorem raiseInSession_ln (e : ErrCode) (s : State) : (raiseInSession e s).ln = s.ln := rfl
@[simp] theorem raiseInSession_ib (e : ErrCode) (s : State) : (raiseInSession e s).ib = s.ib := rfl
@[simp] theorem raiseInSession_cnt (e : ErrCode) (s : State) : (raiseInSession e s).cnt = 0 := rfl
@[simp] theorem raiseInSession_mode (e : ErrCode) (s : State) : (raiseInSession e s).mode = .idle := rfl
@[simp] theorem raiseInSession_err (e : ErrCode) (s : State) : (raiseInSession e s).err = e := rfl
@[simp] theorem raiseInSession_det (e : ErrCode) (s : State) : (raiseInSession e s).det = s.det := rfl
@[simp] theorem raiseInSession_detv (e : ErrCode) (s : State) : (raiseInSession e s).detv = s.detv := rfl
@[simp] theorem raiseInSession_unit (e : ErrCode) (s : State) : (raiseInSession e s).unit = s.unit := rfl
@[simp] theorem raiseInSession_dinv (e : ErrCode) (s : State) : (raiseInSession e s).dinv = s.dinv := rfl
@[simp] theorem raiseInSession_kiv (e : ErrCode) (s : State) : (raiseInSession e s).kiv = s.kiv := rfl
@[simp] theorem raiseInSession_cmd (e : ErrCode) (s : State) : (raiseInSession e s).cmd = s.cmd := rfl
@[simp] theorem raiseInSession_out (e : ErrCode) (s : State) : (raiseInSession e s).out = s.out ++ [.response (responseWord e 0)] := rfl

/-! ### `emitAll` -/

@[simp] theorem emitAll_cap (rs : List Residue) (s : State) : (emitAll rs s).cap = s.cap := rfl
@[simp] theorem emitAll_km (rs : List Residue) (s : State) : (emitAll rs s).km = s.km := rfl
@[simp] theorem emitAll_sv (rs : List Residue) (s : State) : (emitAll rs s).sv = s.sv := rfl
@[simp] theorem emitAll_kdim (rs : List Residue) (s : State) : (emitAll rs s).kdim = s.kdim := rfl
@[simp] theorem emitAll_ldim (rs : List Residue) (s : State) : (emitAll rs s).ldim = s.ldim := rfl
@[simp] theorem emitAll_ki (rs : List Residue) (s : State) : (emitAll rs s).ki = s.ki := rfl
@[simp] theorem emitAll_ln (rs : List Residue) (s : State) : (emitAll rs s).ln = s.ln := rfl
@[simp] theorem emitAll_ib (rs : List Residue) (s : State) : (emitAll rs s).ib = s.ib := rfl
@[simp] theorem emitAll_cnt (rs : List Residue) (s : State) : (emitAll rs s).cnt = s.cnt := rfl
@[simp] theorem emitAll_mode (rs : List Residue) (s : State) : (emitAll rs s).mode = s.mode := rfl
@[simp] theorem emitAll_err (rs : List Residue) (s : State) : (emitAll rs s).err = s.err := rfl
@[simp] theorem emitAll_det (rs : List Residue) (s : State) : (emitAll rs s).det = s.det := rfl
@[simp] theorem emitAll_detv (rs : List Residue) (s : State) : (emitAll rs s).detv = s.detv := rfl
@[simp] theorem emitAll_unit (rs : List Residue) (s : State) : (emitAll rs s).unit = s.unit := rfl
@[simp] theorem emitAll_dinv (rs : List Residue) (s : State) : (emitAll rs s).dinv = s.dinv := rfl
@[simp] theorem emitAll_kiv (rs : List Residue) (s : State) : (emitAll rs s).kiv = s.kiv := rfl
@[simp] theorem emitAll_cmd (rs : List Residue) (s : State) : (emitAll rs s).cmd = s.cmd := rfl
@[simp] theorem emitAll_out (rs : List Residue) (s : State) : (emitAll rs s).out = s.out ++ rs.map fun r => .symbol (toSymbol r) := rfl

/-! ### `flushBlock` -/

@[simp] theorem flushBlock_cap (s : State) : (flushBlock s).cap = s.cap := rfl
@[simp] theorem flushBlock_km (s : State) : (flushBlock s).km = s.km := rfl
@[simp] theorem flushBlock_sv (s : State) : (flushBlock s).sv = s.sv := rfl
@[simp] theorem flushBlock_kdim (s : State) : (flushBlock s).kdim = s.kdim := rfl
@[simp] theorem flushBlock_ldim (s : State) : (flushBlock s).ldim = s.ldim := rfl
@[simp] theorem flushBlock_ki (s : State) : (flushBlock s).ki = s.ki := rfl
@[simp] theorem flushBlock_ln (s : State) : (flushBlock s).ln = s.ln := rfl
@[simp] theorem flushBlock_ib (s : State) : (flushBlock s).ib = s.ib := rfl
@[simp] theorem flushBlock_cnt (s : State) : (flushBlock s).cnt = 0 := rfl
@[simp] theorem flushBlock_mode (s : State) : (flushBlock s).mode = s.mode := rfl
@[simp] theorem flushBlock_err (s : State) : (flushBlock s).err = s.err := rfl
@[simp] theorem flushBlock_det (s : State) : (flushBlock s).det = s.det := rfl
@[simp] theorem flushBlock_detv (s : State) : (flushBlock s).detv = s.detv := rfl
@[simp] theorem flushBlock_unit (s : State) : (flushBlock s).unit = s.unit := rfl
@[simp] theorem flushBlock_dinv (s : State) : (flushBlock s).dinv = s.dinv := rfl
@[simp] theorem flushBlock_kiv (s : State) : (flushBlock s).kiv = s.kiv := rfl
@[simp] theorem flushBlock_cmd (s : State) : (flushBlock s).cmd = s.cmd := rfl
@[simp] theorem flushBlock_out (s : State) : (flushBlock s).out = s.out ++ (blockOut s).map fun r => .symbol (toSymbol r) := rfl

/-! ### `clearKeyFlags` -/

@[simp] theorem clearKeyFlags_cap (s : State) : (clearKeyFlags s).cap = s.cap := rfl
@[simp] theorem clearKeyFlags_km (s : State) : (clearKeyFlags s).km = s.km := rfl
@[simp] theorem clearKeyFlags_sv (s : State) : (clearKeyFlags s).sv = s.sv := rfl
@[simp] theorem clearKeyFlags_kdim (s : State) : (clearKeyFlags s).kdim = s.kdim := rfl
@[simp] theorem clearKeyFlags_ldim (s : State) : (clearKeyFlags s).ldim = s.ldim := rfl
@[simp] theorem clearKeyFlags_ki (s : State) : (clearKeyFlags s).ki = s.ki := rfl
@[simp] theorem clearKeyFlags_ln (s : State) : (clearKeyFlags s).ln = s.ln := rfl
@[simp] theorem clearKeyFlags_ib (s : State) : (clearKeyFlags s).ib = s.ib := rfl
@[simp] theorem clearKeyFlags_cnt (s : State) : (clearKeyFlags s).cnt = s.cnt := rfl
@[simp] theorem clearKeyFlags_mode (s : State) : (clearKeyFlags s).mode = s.mode := rfl
@[simp] theorem clearKeyFlags_err (s : State) : (clearKeyFlags s).err = s.err := rfl
@[simp] theorem clearKeyFlags_det (s : State) : (clearKeyFlags s).det = s.det := rfl
@[simp] theorem clearKeyFlags_detv (s : State) : (clearKeyFlags s).detv = false := rfl
@[simp] theorem clearKeyFlags_unit (s : State) : (clearKeyFlags s).unit = false := rfl
@[simp] theorem clearKeyFlags_dinv (s : State) : (clearKeyFlags s).dinv = s.dinv := rfl
@[simp] theorem clearKeyFlags_kiv (s : State) : (clearKeyFlags s).kiv = false := rfl
@[simp] theorem clearKeyFlags_cmd (s : State) : (clearKeyFlags s).cmd = s.cmd := rfl
@[simp] theorem clearKeyFlags_out (s : State) : (clearKeyFlags s).out = s.out := rfl

/-! ### `computeDet` -/

@[simp] theorem computeDet_cap (s : State) : (computeDet s).cap = s.cap := rfl
@[simp] theorem computeDet_km (s : State) : (computeDet s).km = s.km := rfl
@[simp] theorem computeDet_sv (s : State) : (computeDet s).sv = s.sv := rfl
@[simp] theorem computeDet_kdim (s : State) : (computeDet s).kdim = s.kdim := rfl
@[simp] theorem computeDet_ldim (s : State) : (computeDet s).ldim = s.ldim := rfl
@[simp] theorem computeDet_ki (s : State) : (computeDet s).ki = s.ki := rfl
@[simp] theorem computeDet_ln (s : State) : (computeDet s).ln = s.ln := rfl
@[simp] theorem computeDet_ib (s : State) : (computeDet s).ib = s.ib := rfl
@[simp] theorem computeDet_cnt (s : State) : (computeDet s).cnt = s.cnt := rfl
@[simp] theorem computeDet_mode (s : State) : (computeDet s).mode = s.mode := rfl
@[simp] theorem computeDet_err (s : State) : (computeDet s).err = s.err := rfl
@[simp] theorem computeDet_det (s : State) : (computeDet s).det = keyDet s := rfl
@[simp] theorem computeDet_detv (s : State) : (computeDet s).detv = true := rfl
@[simp] theorem computeDet_unit (s : State) : (computeDet s).unit = isUnit26 (keyDet s) := rfl
@[simp] theorem computeDet_dinv (s : State) : (computeDet s).dinv = s.dinv := rfl
@[simp] theorem computeDet_kiv (s : State) : (computeDet s).kiv = s.kiv := rfl
@[simp] theorem computeDet_cmd (s : State) : (computeDet s).cmd = s.cmd := rfl
@[simp] theorem computeDet_out (s : State) : (computeDet s).out = s.out := rfl

/-! ### `storeInverse` -/

@[simp] theorem storeInverse_cap (s : State) : (storeInverse s).cap = s.cap := rfl
@[simp] theorem storeInverse_km (s : State) : (storeInverse s).km = s.km := rfl
@[simp] theorem storeInverse_sv (s : State) : (storeInverse s).sv = s.sv := rfl
@[simp] theorem storeInverse_kdim (s : State) : (storeInverse s).kdim = s.kdim := rfl
@[simp] theorem storeInverse_ldim (s : State) : (storeInverse s).ldim = s.ldim := rfl
@[simp] theorem storeInverse_ki (s : State) : (storeInverse s).ki = Mat.fill s.ki s.kdim (keyInverse s) := rfl
@[simp] theorem storeInverse_ln (s : State) : (storeInverse s).ln = s.ln := rfl
@[simp] theorem storeInverse_ib (s : State) : (storeInverse s).ib = s.ib := rfl
@[simp] theorem storeInverse_cnt (s : State) : (storeInverse s).cnt = s.cnt := rfl
@[simp] theorem storeInverse_mode (s : State) : (storeInverse s).mode = s.mode := rfl
@[simp] theorem storeInverse_err (s : State) : (storeInverse s).err = s.err := rfl
@[simp] theorem storeInverse_det (s : State) : (storeInverse s).det = s.det := rfl
@[simp] theorem storeInverse_detv (s : State) : (storeInverse s).detv = s.detv := rfl
@[simp] theorem storeInverse_unit (s : State) : (storeInverse s).unit = s.unit := rfl
@[simp] theorem storeInverse_dinv (s : State) : (storeInverse s).dinv = inv26 (keyDet s) := rfl
@[simp] theorem storeInverse_kiv (s : State) : (storeInverse s).kiv = true := rfl
@[simp] theorem storeInverse_cmd (s : State) : (storeInverse s).cmd = s.cmd := rfl
@[simp] theorem storeInverse_out (s : State) : (storeInverse s).out = s.out := rfl

/-! ### `storeShift` -/

@[simp] theorem storeShift_cap (s : State) : (storeShift s).cap = s.cap := rfl
@[simp] theorem storeShift_km (s : State) : (storeShift s).km = s.km := rfl
@[simp] theorem storeShift_sv (s : State) : (storeShift s).sv = s.sv := rfl
@[simp] theorem storeShift_kdim (s : State) : (storeShift s).kdim = s.kdim := rfl
@[simp] theorem storeShift_ldim (s : State) : (storeShift s).ldim = s.ldim := rfl
@[simp] theorem storeShift_ki (s : State) : (storeShift s).ki = s.ki := rfl
@[simp] theorem storeShift_ln (s : State) : (storeShift s).ln = Vec.fill s.ln 0 s.kdim (transformedShift s.kdim (Mat.get s.ki) (Vec.get s.sv)) := rfl
@[simp] theorem storeShift_ib (s : State) : (storeShift s).ib = s.ib := rfl
@[simp] theorem storeShift_cnt (s : State) : (storeShift s).cnt = s.cnt := rfl
@[simp] theorem storeShift_mode (s : State) : (storeShift s).mode = s.mode := rfl
@[simp] theorem storeShift_err (s : State) : (storeShift s).err = s.err := rfl
@[simp] theorem storeShift_det (s : State) : (storeShift s).det = s.det := rfl
@[simp] theorem storeShift_detv (s : State) : (storeShift s).detv = s.detv := rfl
@[simp] theorem storeShift_unit (s : State) : (storeShift s).unit = s.unit := rfl
@[simp] theorem storeShift_dinv (s : State) : (storeShift s).dinv = s.dinv := rfl
@[simp] theorem storeShift_kiv (s : State) : (storeShift s).kiv = s.kiv := rfl
@[simp] theorem storeShift_cmd (s : State) : (storeShift s).cmd = s.cmd := rfl
@[simp] theorem storeShift_out (s : State) : (storeShift s).out = s.out := rfl

/-! ### `takeLetter` -/

@[simp] theorem takeLetter_cap (r : Residue) (s : State) : (takeLetter r s).cap = s.cap := rfl
@[simp] theorem takeLetter_km (r : Residue) (s : State) : (takeLetter r s).km = s.km := rfl
@[simp] theorem takeLetter_sv (r : Residue) (s : State) : (takeLetter r s).sv = s.sv := rfl
@[simp] theorem takeLetter_kdim (r : Residue) (s : State) : (takeLetter r s).kdim = s.kdim := rfl
@[simp] theorem takeLetter_ldim (r : Residue) (s : State) : (takeLetter r s).ldim = s.ldim := rfl
@[simp] theorem takeLetter_ki (r : Residue) (s : State) : (takeLetter r s).ki = s.ki := rfl
@[simp] theorem takeLetter_ln (r : Residue) (s : State) : (takeLetter r s).ln = s.ln := rfl
@[simp] theorem takeLetter_ib (r : Residue) (s : State) : (takeLetter r s).ib = Vec.set s.ib s.cnt r := rfl
@[simp] theorem takeLetter_cnt (r : Residue) (s : State) : (takeLetter r s).cnt = s.cnt + 1 := rfl
@[simp] theorem takeLetter_mode (r : Residue) (s : State) : (takeLetter r s).mode = s.mode := rfl
@[simp] theorem takeLetter_err (r : Residue) (s : State) : (takeLetter r s).err = s.err := rfl
@[simp] theorem takeLetter_det (r : Residue) (s : State) : (takeLetter r s).det = s.det := rfl
@[simp] theorem takeLetter_detv (r : Residue) (s : State) : (takeLetter r s).detv = s.detv := rfl
@[simp] theorem takeLetter_unit (r : Residue) (s : State) : (takeLetter r s).unit = s.unit := rfl
@[simp] theorem takeLetter_dinv (r : Residue) (s : State) : (takeLetter r s).dinv = s.dinv := rfl
@[simp] theorem takeLetter_kiv (r : Residue) (s : State) : (takeLetter r s).kiv = s.kiv := rfl
@[simp] theorem takeLetter_cmd (r : Residue) (s : State) : (takeLetter r s).cmd = s.cmd := rfl
@[simp] theorem takeLetter_out (r : Residue) (s : State) : (takeLetter r s).out = s.out := rfl

/-! ### `padBlock` -/

@[simp] theorem padBlock_cap (s : State) : (padBlock s).cap = s.cap := rfl
@[simp] theorem padBlock_km (s : State) : (padBlock s).km = s.km := rfl
@[simp] theorem padBlock_sv (s : State) : (padBlock s).sv = s.sv := rfl
@[simp] theorem padBlock_kdim (s : State) : (padBlock s).kdim = s.kdim := rfl
@[simp] theorem padBlock_ldim (s : State) : (padBlock s).ldim = s.ldim := rfl
@[simp] theorem padBlock_ki (s : State) : (padBlock s).ki = s.ki := rfl
@[simp] theorem padBlock_ln (s : State) : (padBlock s).ln = s.ln := rfl
@[simp] theorem padBlock_ib (s : State) : (padBlock s).ib = Vec.fill s.ib s.cnt s.kdim fun _ => padResidue := rfl
@[simp] theorem padBlock_cnt (s : State) : (padBlock s).cnt = s.cnt := rfl
@[simp] theorem padBlock_mode (s : State) : (padBlock s).mode = s.mode := rfl
@[simp] theorem padBlock_err (s : State) : (padBlock s).err = s.err := rfl
@[simp] theorem padBlock_det (s : State) : (padBlock s).det = s.det := rfl
@[simp] theorem padBlock_detv (s : State) : (padBlock s).detv = s.detv := rfl
@[simp] theorem padBlock_unit (s : State) : (padBlock s).unit = s.unit := rfl
@[simp] theorem padBlock_dinv (s : State) : (padBlock s).dinv = s.dinv := rfl
@[simp] theorem padBlock_kiv (s : State) : (padBlock s).kiv = s.kiv := rfl
@[simp] theorem padBlock_cmd (s : State) : (padBlock s).cmd = s.cmd := rfl
@[simp] theorem padBlock_out (s : State) : (padBlock s).out = s.out := rfl

/-! ### `refuse` -/

@[simp] theorem refuse_cap (op : BitVec 8) (s : State) : (refuse op s).cap = s.cap := by
  unfold refuse; split <;> rfl
@[simp] theorem refuse_km (op : BitVec 8) (s : State) : (refuse op s).km = s.km := by
  unfold refuse; split <;> rfl
@[simp] theorem refuse_sv (op : BitVec 8) (s : State) : (refuse op s).sv = s.sv := by
  unfold refuse; split <;> rfl
@[simp] theorem refuse_kdim (op : BitVec 8) (s : State) : (refuse op s).kdim = s.kdim := by
  unfold refuse; split <;> rfl
@[simp] theorem refuse_ldim (op : BitVec 8) (s : State) : (refuse op s).ldim = s.ldim := by
  unfold refuse; split <;> rfl
@[simp] theorem refuse_ki (op : BitVec 8) (s : State) : (refuse op s).ki = s.ki := by
  unfold refuse; split <;> rfl
@[simp] theorem refuse_ln (op : BitVec 8) (s : State) : (refuse op s).ln = s.ln := by
  unfold refuse; split <;> rfl
@[simp] theorem refuse_ib (op : BitVec 8) (s : State) : (refuse op s).ib = s.ib := by
  unfold refuse; split <;> rfl
@[simp] theorem refuse_cnt (op : BitVec 8) (s : State) : (refuse op s).cnt = s.cnt := by
  unfold refuse; split <;> rfl
@[simp] theorem refuse_mode (op : BitVec 8) (s : State) : (refuse op s).mode = s.mode := by
  unfold refuse; split <;> rfl
@[simp] theorem refuse_err (op : BitVec 8) (s : State) :
    (refuse op s).err = if op = rdOpcode then s.err else .illegalCommand := by
  unfold refuse; split <;> rfl
@[simp] theorem refuse_det (op : BitVec 8) (s : State) : (refuse op s).det = s.det := by
  unfold refuse; split <;> rfl
@[simp] theorem refuse_detv (op : BitVec 8) (s : State) : (refuse op s).detv = s.detv := by
  unfold refuse; split <;> rfl
@[simp] theorem refuse_unit (op : BitVec 8) (s : State) : (refuse op s).unit = s.unit := by
  unfold refuse; split <;> rfl
@[simp] theorem refuse_dinv (op : BitVec 8) (s : State) : (refuse op s).dinv = s.dinv := by
  unfold refuse; split <;> rfl
@[simp] theorem refuse_kiv (op : BitVec 8) (s : State) : (refuse op s).kiv = s.kiv := by
  unfold refuse; split <;> rfl
@[simp] theorem refuse_cmd (op : BitVec 8) (s : State) : (refuse op s).cmd = s.cmd := by
  unfold refuse; split <;> rfl
@[simp] theorem refuse_out (op : BitVec 8) (s : State) :
    (refuse op s).out = s.out ++ [.response (responseWord .illegalCommand 0)] := by
  unfold refuse; split <;> rfl

/-! ### `applyReset` -/

@[simp] theorem applyReset_cap (s : State) : (applyReset s).cap = s.cap := rfl
@[simp] theorem applyReset_km (s : State) : (applyReset s).km = zeroMat := rfl
@[simp] theorem applyReset_sv (s : State) : (applyReset s).sv = zeroVec := rfl
@[simp] theorem applyReset_kdim (s : State) : (applyReset s).kdim = 1 := rfl
@[simp] theorem applyReset_ldim (s : State) : (applyReset s).ldim = 1 := rfl
@[simp] theorem applyReset_ki (s : State) : (applyReset s).ki = zeroMat := rfl
@[simp] theorem applyReset_ln (s : State) : (applyReset s).ln = zeroVec := rfl
@[simp] theorem applyReset_ib (s : State) : (applyReset s).ib = zeroVec := rfl
@[simp] theorem applyReset_cnt (s : State) : (applyReset s).cnt = 0 := rfl
@[simp] theorem applyReset_mode (s : State) : (applyReset s).mode = .idle := rfl
@[simp] theorem applyReset_err (s : State) : (applyReset s).err = .success := rfl
@[simp] theorem applyReset_det (s : State) : (applyReset s).det = 0 := rfl
@[simp] theorem applyReset_detv (s : State) : (applyReset s).detv = false := rfl
@[simp] theorem applyReset_unit (s : State) : (applyReset s).unit = false := rfl
@[simp] theorem applyReset_dinv (s : State) : (applyReset s).dinv = 0 := rfl
@[simp] theorem applyReset_kiv (s : State) : (applyReset s).kiv = false := rfl
@[simp] theorem applyReset_cmd (s : State) : (applyReset s).cmd = s.cmd := rfl
@[simp] theorem applyReset_out (s : State) : (applyReset s).out = s.out := rfl

/-! ### `computeInverse` -/

/-- The key is invertible: `compute_inverse()` stores the inverse (spec/41_modular_matrix.md R86). -/
theorem computeInverse_of_unit (s : State) (h : isUnit26 (keyDet s) = true) :
    computeInverse s = storeInverse (computeDet s) := by simp [computeInverse, h]

/-- The key is not invertible: only the flags and `DET` change (spec/41_modular_matrix.md R86). -/
theorem computeInverse_of_not_unit (s : State) (h : isUnit26 (keyDet s) = false) :
    computeInverse s = { computeDet s with kiv := false } := by simp [computeInverse, h]

@[simp] theorem keyDet_computeDet (s : State) : keyDet (computeDet s) = keyDet s := rfl

@[simp] theorem keyInverse_computeDet (s : State) : keyInverse (computeDet s) = keyInverse s := rfl

@[simp] theorem computeInverse_cap (s : State) : (computeInverse s).cap = s.cap := by
  cases h : isUnit26 (keyDet s) <;> simp [computeInverse, h]
@[simp] theorem computeInverse_km (s : State) : (computeInverse s).km = s.km := by
  cases h : isUnit26 (keyDet s) <;> simp [computeInverse, h]
@[simp] theorem computeInverse_sv (s : State) : (computeInverse s).sv = s.sv := by
  cases h : isUnit26 (keyDet s) <;> simp [computeInverse, h]
@[simp] theorem computeInverse_kdim (s : State) : (computeInverse s).kdim = s.kdim := by
  cases h : isUnit26 (keyDet s) <;> simp [computeInverse, h]
@[simp] theorem computeInverse_ldim (s : State) : (computeInverse s).ldim = s.ldim := by
  cases h : isUnit26 (keyDet s) <;> simp [computeInverse, h]
@[simp] theorem computeInverse_ki (s : State) : (computeInverse s).ki = if isUnit26 (keyDet s) then Mat.fill s.ki s.kdim (keyInverse s) else s.ki := by
  cases h : isUnit26 (keyDet s) <;> simp [computeInverse, h]
@[simp] theorem computeInverse_ln (s : State) : (computeInverse s).ln = s.ln := by
  cases h : isUnit26 (keyDet s) <;> simp [computeInverse, h]
@[simp] theorem computeInverse_ib (s : State) : (computeInverse s).ib = s.ib := by
  cases h : isUnit26 (keyDet s) <;> simp [computeInverse, h]
@[simp] theorem computeInverse_cnt (s : State) : (computeInverse s).cnt = s.cnt := by
  cases h : isUnit26 (keyDet s) <;> simp [computeInverse, h]
@[simp] theorem computeInverse_mode (s : State) : (computeInverse s).mode = s.mode := by
  cases h : isUnit26 (keyDet s) <;> simp [computeInverse, h]
@[simp] theorem computeInverse_err (s : State) : (computeInverse s).err = s.err := by
  cases h : isUnit26 (keyDet s) <;> simp [computeInverse, h]
@[simp] theorem computeInverse_det (s : State) : (computeInverse s).det = keyDet s := by
  cases h : isUnit26 (keyDet s) <;> simp [computeInverse, h]
@[simp] theorem computeInverse_detv (s : State) : (computeInverse s).detv = true := by
  cases h : isUnit26 (keyDet s) <;> simp [computeInverse, h]
@[simp] theorem computeInverse_unit (s : State) : (computeInverse s).unit = isUnit26 (keyDet s) := by
  cases h : isUnit26 (keyDet s) <;> simp [computeInverse, h]
@[simp] theorem computeInverse_dinv (s : State) : (computeInverse s).dinv = if isUnit26 (keyDet s) then inv26 (keyDet s) else s.dinv := by
  cases h : isUnit26 (keyDet s) <;> simp [computeInverse, h]
@[simp] theorem computeInverse_kiv (s : State) : (computeInverse s).kiv = isUnit26 (keyDet s) := by
  cases h : isUnit26 (keyDet s) <;> simp [computeInverse, h]
@[simp] theorem computeInverse_cmd (s : State) : (computeInverse s).cmd = s.cmd := by
  cases h : isUnit26 (keyDet s) <;> simp [computeInverse, h]
@[simp] theorem computeInverse_out (s : State) : (computeInverse s).out = s.out := by
  cases h : isUnit26 (keyDet s) <;> simp [computeInverse, h]

end Sys2Proof.Machine
end

