-- ==== Sys2Proof/Laws/Commands.lean ====
section
/-! SUPPORT. Sys2Proof/Laws/Commands.lean: what the shared operations of the commands do, said once: refusing, the
codec, the two output streams, a block, the inverse step, and which fields the invariant does not look at. -/

namespace Sys2Proof.Machine

/-- All that a refusal does to a word that is no `RD` (spec/60_exceptions.md R146). -/
theorem refuse_of_ne {op : BitVec 8} (h : op ≠ rdOpcode) (s : State) :
    refuse op s = { s with err := .illegalCommand, out := s.out ++ [.response 0x50000000] } := by
  simp [refuse, h, respond, responseWord_illegalCommand]

/-- All that a refusal of an `RD` word does (spec/60_exceptions.md R146). -/
theorem refuse_rd (s : State) : refuse rdOpcode s = { s with out := s.out ++ [.response 0x50000000] } := by
  simp [refuse, respond, responseWord_illegalCommand]

/-- A code has a residue exactly when it is a lowercase letter (spec/42_hill_engine.md R101). -/
theorem toResidue_isSome (c : Nat) : (toResidue c).isSome = true ↔ 0x61 ≤ c ∧ c ≤ 0x7A := by
  simp only [toResidue, letterA, letterZ]
  by_cases h : c < 97 ∨ 122 < c
  · simp [h]; omega
  · simp [h]; omega

/-- A block has `KDIM` letters (spec/42_hill_engine.md R105, R106). -/
@[simp] theorem blockOut_length (s : State) : (blockOut s).length = s.kdim := by
  simp only [blockOut, encOut, decOut, encblock, decblock]
  split <;> simp

/-! ### Texts -/

@[simp] theorem shiftVector_length (s : State) : (shiftVector s).length = s.ldim := by simp [shiftVector]

/-- The declared shift vector is `SV` below `LDIM`. -/
theorem column_shiftVector (s : State) {i : Nat} (h : i < s.ldim) : column (shiftVector s) i = Vec.get s.sv i := by
  simp [column, shiftVector, h]

@[simp] theorem encblock_length (k : Nat) (K : Nat → Nat → Residue) (L v : Nat → Residue) :
    (encblock k K L v).length = k := by simp [encblock]

@[simp] theorem decblock_length (k : Nat) (Ki : Nat → Nat → Residue) (Ln c : Nat → Residue) :
    (decblock k Ki Ln c).length = k := by simp [decblock]

/-- An encrypted block looks at the shift and the letters below `k` only (spec/42_hill_engine.md R103). -/
theorem encblock_congr {k : Nat} (K : Nat → Nat → Residue) {L L' v v' : Nat → Residue} (hL : ∀ i < k, L i = L' i)
    (hv : ∀ i < k, v i = v' i) : encblock k K L v = encblock k K L' v' := by
  apply List.map_congr_left
  intro i hi
  rw [hL i (List.mem_range.mp hi), sumTo_congr fun j hj => by rw [hv j hj]]

/-- All that `encrypt` does with a shift vector of the key's dimension. -/
theorem encrypt_of_length {k : Nat} (K : Nat → Nat → Residue) {L : List Residue} (h : L.length = k) (t : List Residue) :
    encrypt k K L t = .ok ((blocks k (pad k t)).flatMap fun v => encblock k K (column L) (column v)) := if_pos h

/-- All that `encrypt` does with a shift vector of another dimension. -/
theorem encrypt_of_ne {k : Nat} (K : Nat → Nat → Residue) {L : List Residue} (h : L.length ≠ k) (t : List Residue) :
    encrypt k K L t = .error .dimensionMismatch := if_neg h

/-! ### The output streams -/

theorem symbolsOf_append (a b : List PortOut) : symbolsOf (a ++ b) = symbolsOf a ++ symbolsOf b := by
  simp [symbolsOf]

theorem responsesOf_append (a b : List PortOut) : responsesOf (a ++ b) = responsesOf a ++ responsesOf b := by
  simp [responsesOf]

@[simp] theorem symbolsOf_symbols (cs : List SymCode) : symbolsOf (cs.map .symbol) = cs := by
  simp [symbolsOf, List.filterMap_map]

@[simp] theorem responsesOf_symbols (cs : List SymCode) : responsesOf (cs.map .symbol) = [] := by
  simp [responsesOf, List.filterMap_map]

@[simp] theorem symbolsOf_response (w : RspWord) : symbolsOf [.response w] = [] := rfl

@[simp] theorem responsesOf_response (w : RspWord) : responsesOf [.response w] = [w] := rfl

/-! ### The invariant -/

/-- The invariants of R25 say nothing about `ERR` but its five values, and nothing about the streams. -/
theorem inv_of_streams {s : State} (h : Inv s) (e : ErrCode) (c : List HostMove) (o : List PortOut) :
    Inv { s with err := e, cmd := c, out := o } :=
  ⟨h.capLegal, h.kdimRange, h.ldimRange, h.cntRange, h.cntIdle, h.detCurrent, h.detStale, h.kivFlags, h.kiCurrent,
    h.sessionDims, h.decInverse, h.decShift⟩

/-- `KMAX` fits the sixteen cells of the register files. -/
theorem cap_le_of_inv {s : State} (h : Inv s) : s.cap ≤ 16 := by
  have := h.capLegal
  simp [Config.legalKmax] at this
  exact this.2

end Sys2Proof.Machine
end

