-- ==== Sys2Proof/Laws/PerInstr.lean ====
section
/-! SUPPORT. Sys2Proof/Laws/PerInstr.lean: families of statements made command by command. -/

namespace Sys2Proof.Laws

/-! ### `OpcodeOfWord`: the word of a command carries its opcode (spec/30_encoding.md R50, R52) -/

/-- The `op` field of a command's word is the command's opcode, one of the eleven assigned ones. -/
def OpcodeOfWord.Statement (i : Instr) : Prop := opField (encode i) = i.opcode ∧ assignedOpcode i.opcode = true

/-- The `op` field of a word is the one its fields were assembled from. -/
theorem opField_encode (i : Instr) : opField (encode i) = i.toFields.op :=
  congrArg Fields.op (fields_assembleFields i.toFields)

theorem OpcodeOfWord.setkd (k : Nat) : OpcodeOfWord.Statement (.setkd k) :=
  ⟨opField_encode _, rfl⟩

theorem OpcodeOfWord.setld (k : Nat) : OpcodeOfWord.Statement (.setld k) :=
  ⟨opField_encode _, rfl⟩

theorem OpcodeOfWord.ldk (row : Nat) (col : Nat) (v : Int) : OpcodeOfWord.Statement (.ldk row col v) :=
  ⟨opField_encode _, rfl⟩

theorem OpcodeOfWord.ldl (row : Nat) (v : Int) : OpcodeOfWord.Statement (.ldl row v) :=
  ⟨opField_encode _, rfl⟩

theorem OpcodeOfWord.chk : OpcodeOfWord.Statement (.chk) :=
  ⟨opField_encode _, rfl⟩

theorem OpcodeOfWord.inv : OpcodeOfWord.Statement (.inv) :=
  ⟨opField_encode _, rfl⟩

theorem OpcodeOfWord.encb : OpcodeOfWord.Statement (.encb) :=
  ⟨opField_encode _, rfl⟩

theorem OpcodeOfWord.decb : OpcodeOfWord.Statement (.decb) :=
  ⟨opField_encode _, rfl⟩

theorem OpcodeOfWord.put (c : Nat) : OpcodeOfWord.Statement (.put c) :=
  ⟨opField_encode _, rfl⟩

theorem OpcodeOfWord.endText : OpcodeOfWord.Statement (.endText) :=
  ⟨opField_encode _, rfl⟩

theorem OpcodeOfWord.rd (reg : Nat) (row : Nat) (col : Nat) : OpcodeOfWord.Statement (.rd reg row col) :=
  ⟨opField_encode _, rfl⟩

end Sys2Proof.Laws
end

