-- ==== Sys2Proof/Tests/Slice0.lean ====
section
/-! SUPPORT. Sys2Proof/Tests/Slice0.lean: the smoke test of well-formedness, words decoded by hand, single steps with
the answers of spec/95_test_vectors.md (the vector is named), and states that meet the hypotheses of the obligations. -/

namespace Sys2Proof.Tests

open Sys2Proof.Machine

/-! ### Small states -/

/-- A unit with `KMAX = 4`, as the vectors of spec/95_test_vectors.md want it. -/
def unit4 : State := State.resetFor 4

/-- Key `[[7]]`, shift `[3]` (S2 of spec/95_test_vectors.md). -/
def affine : State := { unit4 with km := Mat.set zeroMat 0 0 7, sv := Vec.set zeroVec 0 3 }

/-- The same with an encrypt session open. -/
def affineEnc : State := { affine with mode := .enc }

/-- The same with its inverse computed. -/
def affineInv : State :=
  { affine with det := 7, detv := true, unit := true, dinv := 15, kiv := true, ki := Mat.set zeroMat 0 0 15 }

/-- The same with a decrypt session open. -/
def affineDec : State := { affineInv with ln := Vec.set zeroVec 0 19, mode := .dec }

/-- A 2 by 2 matrix file. -/
def mat2 (a b c d : Residue) : Mat := Mat.set (Mat.set (Mat.set (Mat.set zeroMat 0 0 a) 0 1 b) 1 0 c) 1 1 d

/-- Key `[[3,3],[2,5]]` (V21), shift `[1,2]`. -/
def key2 : State :=
  { unit4 with km := mat2 3 3 2 5, sv := Vec.set (Vec.set zeroVec 0 1) 1 2, kdim := 2, ldim := 2 }

/-- The same in an encrypt session after `PUT 'h'`. -/
def key2Enc : State := { key2 with mode := .enc, cnt := 1, ib := Vec.set zeroVec 0 7 }

/-- The same in a decrypt session after `PUT 'a'` (V75). -/
def key2Dec : State :=
  { key2 with det := 9, detv := true, unit := true, dinv := 3, kiv := true, ki := mat2 15 17 20 9,
              ln := Vec.set (Vec.set zeroVec 0 23) 1 12, mode := .dec, cnt := 1 }

/-- The widest block, full but for one letter. -/
def wideEnc : State := { State.resetFor 16 with kdim := 16, ldim := 16, mode := .enc, cnt := 15 }

/-- A state with one more move of the host. -/
def sent (s : State) (w : CmdWord) : State := { s with cmd := [.word w] }

/-- The next state, where there is one. -/
def nextOf (o : Host.Outcome State Fault Refusal) : Option State :=
  match o with
  | .next t => some t
  | .fault _ => none
  | .refused _ => none

/-- What a step on the word `w` shows of its next state. -/
def seen {α : Type} (s : State) (w : CmdWord) (f : State → α) : Option α := (nextOf (step (sent s w))).map f

/-! ### Well-formedness: an ill-formed term for each check, and the last value each check admits -/

theorem test_wf_setkd : (Instr.setkd 65536).wf = false ∧ (Instr.setkd 65535).wf = true := by decide
theorem test_wf_setld : (Instr.setld 65536).wf = false ∧ (Instr.setld 65535).wf = true := by decide
theorem test_wf_put : (Instr.put 65536).wf = false ∧ (Instr.put 65535).wf = true := by decide
theorem test_wf_ldk_row : (Instr.ldk 16 0 0).wf = false ∧ (Instr.ldk 15 0 0).wf = true := by decide
theorem test_wf_ldk_col : (Instr.ldk 0 16 0).wf = false ∧ (Instr.ldk 0 15 0).wf = true := by decide
theorem test_wf_ldk_high : (Instr.ldk 0 0 32768).wf = false ∧ (Instr.ldk 0 0 32767).wf = true := by decide
theorem test_wf_ldk_low : (Instr.ldk 0 0 (-32769)).wf = false ∧ (Instr.ldk 0 0 (-32768)).wf = true := by decide
theorem test_wf_ldl_row : (Instr.ldl 16 0).wf = false ∧ (Instr.ldl 15 0).wf = true := by decide
theorem test_wf_ldl_value : (Instr.ldl 0 32768).wf = false ∧ (Instr.ldl 0 (-32769)).wf = false := by decide
theorem test_wf_rd_reg : (Instr.rd 65536 0 0).wf = false ∧ (Instr.rd 65535 15 15).wf = true := by decide
theorem test_wf_rd_row : (Instr.rd 0 16 0).wf = false ∧ (Instr.rd 0 0 16).wf = false := by decide

/-! ### Words written out from the fields of spec/30_encoding.md R50, R52 -/

theorem test_decode_setkd : decode 0b00010000_0000_0000_0000000000000011 = .ok (.setkd 3) := by decide
theorem test_decode_setld : decode 0b00010001_0000_0000_1000000000000001 = .ok (.setld 0x8001) := by decide
theorem test_decode_ldk : decode 0b00010010_0001_0010_1111111111111101 = .ok (.ldk 1 2 (-3)) := by decide
theorem test_decode_ldl : decode 0b00010011_1000_0000_0111111111111111 = .ok (.ldl 8 32767) := by decide
theorem test_decode_chk : decode 0b00100000_0000_0000_0000000000000000 = .ok .chk := by decide
theorem test_decode_inv : decode 0b00100001_0000_0000_0000000000000000 = .ok .inv := by decide
theorem test_decode_encb : decode 0b00110000_0000_0000_0000000000000000 = .ok .encb := by decide
theorem test_decode_decb : decode 0b00110001_0000_0000_0000000000000000 = .ok .decb := by decide
theorem test_decode_put : decode 0b00110010_0000_0000_0000000101100001 = .ok (.put 0x161) := by decide
theorem test_decode_end : decode 0b00110011_0000_0000_0000000000000000 = .ok .endText := by decide
theorem test_decode_rd : decode 0b01000000_0001_0010_0000000000010010 = .ok (.rd 0x12 1 2) := by decide

/-- V62 to V64: unassigned opcodes. -/
theorem test_decode_unassigned :
    decode 0x00000000 = .error (.unassignedOpcode 0x00) ∧ decode 0xFFFFFFFF = .error (.unassignedOpcode 0xFF) ∧
    decode 0x14000000 = .error (.unassignedOpcode 0x14) ∧ decode 0x41000000 = .error (.unassignedOpcode 0x41) := by
  decide

/-- V65 to V69: a field the command does not use is not zero. -/
theorem test_decode_unused_field :
    decode 0x20000001 = .error (.unusedFieldNotZero 0x20) ∧ decode 0x13010005 = .error (.unusedFieldNotZero 0x13) ∧
    decode 0x10010001 = .error (.unusedFieldNotZero 0x10) ∧ decode 0x32010061 = .error (.unusedFieldNotZero 0x32) ∧
    decode 0x33000001 = .error (.unusedFieldNotZero 0x33) := by
  decide

/-- The host's numbering of a table word: 32 bits, bit 31 the most significant. -/
theorem test_table_word : decodeTableWord 32 0x12110003 = some (.ldk 1 1 3) := by decide

/-- The word is the very next command after reset. -/
theorem test_fetch_word : (State.reset.withFetchWord 32 0x10000003).cmd = [.word 0x10000003] := by decide

/-! ### Single steps -/

/-- V1. -/
theorem test_setkd : seen unit4 0x10000003 (fun t => (t.kdim, t.ldim, t.out)) = some (3, 1, [.response 0x00000003]) := by
  decide

/-- V3. -/
theorem test_setkd_beyond : seen unit4 0x10000005 (fun t => (t.kdim, t.err, t.out)) =
    some (1, .illegalCommand, [.response 0x50000000]) := by decide

/-- V14. -/
theorem test_setld : seen unit4 0x11000002 (fun t => (t.kdim, t.ldim, t.out)) = some (1, 2, [.response 0x00000002]) := by
  decide

/-- V71. -/
theorem test_setld_zero : seen unit4 0x11000000 (fun t => (t.ldim, t.out)) = some (1, [.response 0x50000000]) := by
  decide

/-- V10: row and column are not exchanged. -/
theorem test_ldk : seen unit4 0x1230FFFF (fun t => (Mat.get t.km 3 0, Mat.get t.km 0 3, t.out)) =
    some (25, 0, [.response 0x00000019]) := by decide

/-- V12: the same value clears the flags all the same. -/
theorem test_ldk_flags : seen affineInv 0x12000007 (fun t => (t.detv, t.unit, t.kiv, statusReg t)) =
    some (false, false, false, 0x0000) := by decide

/-- The example of R73. -/
theorem test_ldl : seen unit4 0x13100014 (fun t => (Vec.get t.sv 1, t.out)) = some (20, [.response 0x00000014]) := by
  decide

/-- `LDL` leaves the flags (R32). -/
theorem test_ldl_flags : seen affineInv 0x13000005 (fun t => (t.detv, t.unit, t.kiv)) = some (true, true, true) := by
  decide

/-- V21. -/
theorem test_chk : seen key2 0x20000000 (fun t => (t.det, t.unit, t.kiv, t.out)) =
    some (9, true, false, [.response 0x00000901]) := by decide

/-- V26: a key without an inverse is no error. -/
theorem test_chk_not_invertible : seen { key2 with km := mat2 2 4 6 8 } 0x20000000 (fun t => (t.err, t.out)) =
    some (.success, [.response 0x00001200]) := by decide

/-- V22: the adjugate is transposed and its signs are kept. -/
theorem test_inv : seen { key2 with km := mat2 9 4 5 7 } 0x21000000 (fun t => (t.dinv, t.ki, t.out)) =
    some (23, mat2 5 12 15 25, [.response 0x00001101]) := by decide

/-- P4: a failed `INV` keeps `KI` and `DINV`. -/
theorem test_inv_fails : seen { affineInv with km := mat2 3 3 2 4, kdim := 2 } 0x21000000
      (fun t => (t.det, t.kiv, t.dinv, t.out)) = some (6, false, 15, [.response 0x20000000]) := by decide

/-- V44: the key is not tested. -/
theorem test_encb : seen unit4 0x30000000 (fun t => (t.mode, t.out)) = some (.enc, [.response 0x00000001]) := by decide

/-- V14. -/
theorem test_encb_mismatch : seen { unit4 with ldim := 2 } 0x30000000 (fun t => (t.mode, t.err, t.out)) =
    some (.idle, .dimensionMismatch, [.response 0x30000000]) := by decide

/-- V34b. -/
theorem test_decb : seen key2 0x31000000 (fun t => (t.mode, t.ki, Vec.get t.ln 0, Vec.get t.ln 1)) =
    some (.dec, mat2 15 17 20 9, 23, 12) := by decide

/-- V73: `NotInvertible` before `DimensionMismatch`. -/
theorem test_decb_order : seen { unit4 with kdim := 2 } 0x31000000 (fun t => (statusReg t, t.out)) =
    some (0x2004, [.response 0x20000000]) := by decide

/-- V34: "he" gives "ik". -/
theorem test_put_flush : seen key2Enc 0x32000065 (fun t => (t.cnt, t.out)) =
    some (0, [.symbol 0x69, .symbol 0x6B, .response 0x00000002]) := by decide

/-- V77: a wide code whose low byte is a letter. -/
theorem test_put_wide_code : seen affineEnc 0x32000161 (fun t => (t.mode, t.out)) =
    some (.idle, [.response 0x10000000]) := by decide

/-- The padding of V38's kind on the key of V34: "h" and z gives [7,25]: 21+75+1 = 97, 14+125+2 = 141. -/
theorem test_end_pads : seen key2Enc 0x33000000 (fun t => (t.mode, t.out)) =
    some (.idle, [.symbol 0x74, .symbol 0x6C, .response 0x00000002]) := by decide

/-- V75. -/
theorem test_end_mismatch : seen key2Dec 0x33000000 (fun t => (statusReg t, t.out)) =
    some (0x301C, [.response 0x30000000]) := by decide

/-- V55: `RD KI, 1, 0` is not `RD KI, 0, 1`. -/
theorem test_rd : seen key2Dec 0x40100012 (fun t => t.out) = some [.response 0x00000014] := by decide

/-- V53: a refused read does not write `ERR`. -/
theorem test_rd_refused : seen unit4 0x40000003 (fun t => (t.err, t.out)) = some (.success, [.response 0x50000000]) := by
  decide

/-- V79: a refusal does not end the session. -/
theorem test_refused_in_session : seen affineEnc 0x20000000 (fun t => (t.mode, t.out)) =
    some (.enc, [.response 0x50000000]) := by decide

/-- V80. -/
theorem test_reset_in_session : nextOf (step { key2Enc with cmd := [.rst] }) = some unit4 := by decide

/-! ### Pure functions and the assembler -/

/-- spec/00_scope.md R5 and the table of spec/41_modular_matrix.md R84. -/
theorem test_mod26 : mod26 (-9) = 17 ∧ mod26 107 = 3 ∧ inv26 7 = 15 ∧ inv26 25 = 25 := by decide

/-- V32: "hill" gives "ahcc". -/
theorem test_encrypt : encrypt 1 (Mat.get affine.km) [3] [7, 8, 11, 11] = .ok [0, 7, 2, 2] := by decide

/-- R103: a shift vector of another dimension fails `encrypt`, and `decrypt` after the test of the key. -/
theorem test_shift_dimension :
    encrypt 1 (Mat.get affine.km) [3, 0] [7] = .error .dimensionMismatch ∧
    decrypt 1 (Mat.get affine.km) [] [0] = .error .dimensionMismatch ∧
    decrypt 1 (Mat.get unit4.km) [] [0] = .error .notInvertible := by decide

/-- The examples of spec/30_encoding.md R58. -/
theorem test_assemble : assemble ["LDK 1, 1, 3".toList, "LDK 0, 1, -1 ; -1 is 25".toList, "PUT 'p'".toList,
    "RD KI, 1, 0".toList] = some [0x12110003, 0x1201FFFF, 0x32000070, 0x40100012] := by decide

/-- The spellings of log 9: no blank is needed after a mnemonic, and an empty list is no line of the syntax. -/
theorem test_assemble_choices :
    assembleLine "SETKD3".toList = some [0x10000003] ∧ assembleLine "SHIFT []".toList = none ∧
    assembleLine "KEY []".toList = none ∧ assembleLine "KEY [[]]".toList = none := by decide

/-- Program P1 of spec/95_test_vectors.md. -/
theorem test_assemble_pseudo : assemble ["KEY [[7]]".toList, "SHIFT [3]".toList, "ENCRYPT \"hi\"".toList] =
    some [0x10000001, 0x12000007, 0x11000001, 0x13000003, 0x30000000, 0x32000068, 0x32000069, 0x33000000] := by decide

/-! ### The hypotheses of the obligations can be met

One theorem for each obligation that has hypotheses, with a part for each of its clauses, at a boundary of its range
where it has one. -/

theorem inv_affine : Inv affine := by constructor <;> decide
theorem inv_affineEnc : Inv affineEnc := by constructor <;> decide
theorem inv_affineInv : Inv affineInv := by constructor <;> decide
theorem inv_affineDec : Inv affineDec := by constructor <;> decide
theorem inv_key2 : Inv key2 := by constructor <;> decide
theorem inv_key2Enc : Inv key2Enc := by constructor <;> decide
theorem inv_key2Dec : Inv key2Dec := by constructor <;> decide
theorem inv_wideEnc : Inv wideEnc := by constructor <;> decide

/-- A word that is rejected decodes to no command. -/
theorem no_command {w : CmdWord} {e : Reject} (h : decode w = .error e) (i : Instr) : decode w ≠ .ok i := by
  rw [h]; exact fun h' => nomatch h'

theorem witness_DecodeInvertsEncode :
    (Instr.ldk 15 15 (-32768)).wf = true ∧ (Instr.rd 65535 15 15).wf = true ∧ (Instr.setkd 65535).wf = true := by decide

theorem witness_EncodeInvertsDecode : decode 0x12FF8000 = .ok (.ldk 15 15 (-32768)) := by decide

theorem witness_DecodeFollowsOpcodeMap :
    (∃ r ∈ opcodeTable, (0x1000FFFF : CmdWord) &&& r.mask = r.matchBits) ∧
    (∀ r ∈ opcodeTable, (0x20000001 : CmdWord) &&& r.mask ≠ r.matchBits) ∧
    decode 0x1000FFFF = .ok (.setkd 65535) := by decide

theorem witness_EncodedWordsAreTheTablesSums :
    65535 < 65536 ∧ 15 < 16 ∧ (-32768 : Int) ≤ -32768 ∧ (-32768 : Int) ≤ 32767 ∧ (32767 : Int) ≤ 32767 := by decide

theorem witness_StepRunsTheDecodedCommand :
    (sent unit4 0x10000003).cmd = [.word 0x10000003] ∧ decode 0x10000003 = .ok (.setkd 3) ∧
    (Instr.setkd 3).wf = true ∧ (0x10000003 : CmdWord) = encode (.setkd 3) := by decide

theorem witness_UndecodableWordIsRefused :
    (sent unit4 0x20000001).cmd = [.word 0x20000001] ∧ ∀ i, decode 0x20000001 ≠ .ok i :=
  ⟨rfl, no_command (show decode 0x20000001 = .error (.unusedFieldNotZero 0x20) by decide)⟩

theorem witness_EveryStepAnswers : unit4.cmd = [] := by decide

theorem witness_EachWordGetsOneResponse : (sent key2Enc 0x32000065).cmd = [.word 0x32000065] := by decide

theorem witness_ResetMoveRestoresResetState : ({ key2Enc with cmd := [.rst] } : State).cmd = [.rst] := by decide

theorem witness_SetkdResult :
    (4 < 65536 ∧ unit4.mode = .idle ∧ 1 ≤ 4 ∧ 4 ≤ unit4.cap) ∧
    ¬ (unit4.mode = .idle ∧ 1 ≤ 0 ∧ 0 ≤ unit4.cap) ∧ ¬ (unit4.mode = .idle ∧ 1 ≤ 5 ∧ 5 ≤ unit4.cap) ∧
    ¬ (affineEnc.mode = .idle ∧ 1 ≤ 1 ∧ 1 ≤ affineEnc.cap) ∧ 65535 < 65536 := by decide

theorem witness_SetldResult :
    (4 < 65536 ∧ unit4.mode = .idle ∧ 1 ≤ 4 ∧ 4 ≤ unit4.cap ∧ 4 ≠ unit4.kdim) ∧
    ¬ (unit4.mode = .idle ∧ 1 ≤ 0 ∧ 0 ≤ unit4.cap) ∧ ¬ (unit4.mode = .idle ∧ 1 ≤ 5 ∧ 5 ≤ unit4.cap) ∧
    ¬ (affineEnc.mode = .idle ∧ 1 ≤ 1 ∧ 1 ≤ affineEnc.cap) ∧ Instr.chk ≠ .encb ∧ Instr.chk ≠ .decb := by decide

theorem witness_LdkResult :
    ((State.resetFor 16).cap ≤ 16 ∧ (State.resetFor 16).mode = .idle ∧ 15 < (State.resetFor 16).cap) ∧
    (unit4.cap ≤ 16 ∧ ¬ (unit4.mode = .idle ∧ 4 < unit4.cap ∧ 0 < unit4.cap)) ∧
    ¬ (affineEnc.mode = .idle ∧ 0 < affineEnc.cap ∧ 0 < affineEnc.cap) ∧
    (15 < 16 ∧ (-32768 : Int) ≤ -32768 ∧ (-32768 : Int) ≤ 32767) := by decide

theorem witness_LdlResult :
    ((State.resetFor 16).cap ≤ 16 ∧ (State.resetFor 16).mode = .idle ∧ 15 < (State.resetFor 16).cap) ∧
    (unit4.cap ≤ 16 ∧ ¬ (unit4.mode = .idle ∧ 4 < unit4.cap)) ∧ ¬ (affineEnc.mode = .idle ∧ 0 < affineEnc.cap) ∧
    (15 < 16 ∧ (-32768 : Int) ≤ 32767 ∧ (32767 : Int) ≤ 32767) ∧ 0 < 15 := by decide

/-- The residue `d` of `ChkResult`, `InvResult`, `DecbResult` for the key of `s`. -/
def keyResidue (s : State) : Residue := mod26 (det s.kdim fun i j => resVal (Mat.get s.km i j))

theorem witness_ChkResult :
    (9 = keyResidue key2 ∧ key2.mode = .idle ∧ Nat.gcd (9 : Residue).val 26 = 1) ∧
    (0 = keyResidue unit4 ∧ unit4.mode = .idle ∧ Nat.gcd (0 : Residue).val 26 ≠ 1) ∧
    (9 = keyResidue key2Enc ∧ key2Enc.mode ≠ .idle) ∧
    ((0x20000001 : CmdWord).extractLsb' 24 8 = 0x20 ∧ (0x20000001 : CmdWord) ≠ 0x20000000) := by decide

theorem witness_InvResult :
    (9 = keyResidue key2 ∧ key2.mode = .idle ∧ Nat.gcd (9 : Residue).val 26 = 1 ∧ key2.kdim ≤ 16) ∧
    (0 = keyResidue unit4 ∧ unit4.mode = .idle ∧ Nat.gcd (0 : Residue).val 26 ≠ 1) ∧
    (9 = keyResidue key2Dec ∧ key2Dec.mode ≠ .idle) ∧
    ((0x21800000 : CmdWord).extractLsb' 24 8 = 0x21 ∧ (0x21800000 : CmdWord) ≠ 0x21000000) := by decide

theorem witness_EncbResult :
    (({ wideEnc with mode := .idle, cnt := 0 } : State).kdim ≤ 16 ∧
      ({ wideEnc with mode := .idle, cnt := 0 } : State).mode = .idle ∧
      ({ wideEnc with mode := .idle, cnt := 0 } : State).ldim = 16) ∧
    (({ unit4 with ldim := 2 } : State).mode = .idle ∧ ({ unit4 with ldim := 2 } : State).kdim = 1) ∧
    (wideEnc.kdim ≤ 16 ∧ wideEnc.mode ≠ .idle) := by decide

theorem witness_DecbResult :
    (unit4.kdim ≤ 16 ∧ 0 = keyResidue unit4 ∧ unit4.mode = .idle ∧ Nat.gcd (0 : Residue).val 26 ≠ 1) ∧
    (key2.kdim ≤ 16 ∧ 9 = keyResidue key2 ∧ key2.mode = .idle ∧ Nat.gcd (9 : Residue).val 26 = 1 ∧
      key2.ldim = key2.kdim) ∧
    (9 = keyResidue { key2 with ldim := 1 } ∧ ({ key2 with ldim := 1 } : State).ldim ≠ key2.kdim) ∧
    key2Dec.mode ≠ .idle := by decide

theorem witness_PutResult :
    (unit4.cnt < 16 ∧ unit4.mode = .idle) ∧
    (wideEnc.cnt < 16 ∧ wideEnc.mode ≠ .idle ∧ (0x60 < 0x61 ∨ 0x7A < 0x60) ∧ (0x7B < 0x61 ∨ 0x7A < 0x7B)) ∧
    (affineEnc.mode ≠ .idle ∧ 0x61 ≤ 0x61 ∧ 0x7A ≤ 0x7A) ∧
    ({ key2Enc with cnt := 0 } : State).cnt + 1 ≠ key2Enc.kdim ∧
    (wideEnc.cnt + 1 = wideEnc.kdim ∧ wideEnc.mode = .enc) ∧
    (key2Dec.cnt + 1 = key2Dec.kdim ∧ key2Dec.mode = .dec) ∧ 65535 < 65536 := by decide

theorem witness_EndResult :
    (unit4.kdim ≤ 16 ∧ unit4.mode = .idle) ∧ (affineEnc.mode ≠ .idle ∧ affineEnc.cnt = 0) ∧
    (affineDec.mode ≠ .idle ∧ affineDec.cnt = 0) ∧ (wideEnc.kdim ≤ 16 ∧ wideEnc.mode = .enc ∧ 0 < wideEnc.cnt) ∧
    (key2Dec.mode = .dec ∧ 0 < key2Dec.cnt) := by decide

theorem witness_RdResult :
    (wideEnc.cap ≤ 16 ∧ wideEnc.kdim ≤ 16 ∧ wideEnc.ldim ≤ 16 ∧ wideEnc.cnt < 16) ∧
    0x0006 ∉ [0x0000, 0x0001, 0x0002, 0x0003, 0x0004, 0x0005, 0x0010, 0x0011, 0x0012, 0x0013] ∧
    0x0014 ∉ [0x0000, 0x0001, 0x0002, 0x0003, 0x0004, 0x0005, 0x0010, 0x0011, 0x0012, 0x0013] ∧
    65535 < 65536 ∧ 15 < 16 := by decide

theorem witness_StatusRegisterFields : wideEnc.cnt < 16 ∧ wideEnc.cnt = 15 := by decide

/-- Every command answers a next state somewhere, so the frames speak of each. -/
theorem witness_KeyLoadFrame : [Instr.setkd 4, .setld 4, .ldk 3 3 (-1), .ldl 3 27].all (fun i =>
    isKeyLoad i && (nextOf (exec i unit4)).isSome) = true := by decide

theorem witness_MatrixUnitFrame :
    (nextOf (exec .chk key2)).isSome = true ∧ (nextOf (exec .inv key2)).isSome = true := by decide

theorem witness_SessionFrame :
    (nextOf (exec .encb key2)).isSome = true ∧ (nextOf (exec .decb key2)).isSome = true ∧
    (nextOf (exec (.put 0x61) key2Enc)).isSome = true ∧ (nextOf (exec .endText key2Enc)).isSome = true := by decide

theorem witness_CapIsConstant :
    (nextOf (step (sent unit4 0x10000004))).isSome = true ∧ (State.resetFor 16).cap ≤ 16 := by decide

theorem witness_CommandsAcceptedByMode :
    acceptedIn affineEnc.mode .chk = false ∧ acceptedIn unit4.mode .endText = false ∧
    (acceptedIn unit4.mode (.ldk 3 3 1) = true ∧ operandsLegal unit4 (.ldk 3 3 1) = true) ∧
    (acceptedIn affineDec.mode (.rd 0x13 0 0) = true ∧ operandsLegal affineDec (.rd 0x13 0 0) = true) := by decide

theorem witness_ModeTransitions :
    unit4.mode = .idle ∧ affineEnc.mode ≠ .idle ∧ affineDec.mode ≠ .idle ∧
    (sent affineEnc 0x00000000).cmd = [.word 0x00000000] ∧ (∀ i, decode 0x00000000 ≠ .ok i) ∧
    ({ affineDec with cmd := [.rst] } : State).cmd = [.rst] :=
  ⟨rfl, by decide, by decide, rfl,
    no_command (show decode 0x00000000 = .error (.unassignedOpcode 0x00) by decide), rfl⟩

theorem witness_StatusFlagRules :
    unit4.mode = .idle ∧ (1 ≤ 4 ∧ 4 ≤ unit4.cap) ∧ 3 < unit4.cap ∧ acceptedIn affineDec.mode .inv = false ∧
    operandsLegal affineInv (.ldk 4 0 0) = false ∧ (∀ i, decode 0x41000000 ≠ .ok i) :=
  ⟨rfl, by decide, by decide, by decide, by decide,
    no_command (show decode 0x41000000 = .error (.unassignedOpcode 0x41) by decide)⟩

theorem witness_ErrHoldsTheLastCode :
    (∀ reg row col, Instr.chk ≠ .rd reg row col) ∧ (∀ row col, Instr.rd 1 0 0 ≠ .rd 0 row col) ∧
    ∃ reg row col, Instr.rd 0 0 0 = .rd reg row col :=
  ⟨(fun _ _ _ h => by cases h), (fun _ _ h => by cases h), 0, 0, 0, rfl⟩

theorem witness_OutputFormKept :
    OutputForm { key2Enc with out := [.symbol 0x61, .symbol 0x7A, .response 0x00000002, .response 0x50000000] } ∧
    (nextOf (step (sent key2Enc 0x32000065))).isSome = true := by
  refine ⟨⟨?_, ?_⟩, by decide⟩
  · intro c hc
    simp [symbolsOf] at hc
    rcases hc with rfl | rfl <;> simp [goodSymbol]
  · intro w hw
    simp [responsesOf] at hw
    rcases hw with rfl | rfl
    · exact ⟨.success, 2, by decide, by decide⟩
    · exact ⟨.illegalCommand, 0, by decide, by decide⟩

theorem witness_InvariantKept :
    (Config.legalKmax 1 = true ∧ Config.legalKmax 16 = true) ∧
    (Inv (sent key2Dec 0x33000000) ∧ (nextOf (step (sent key2Dec 0x33000000))).isSome = true) :=
  ⟨by decide, inv_of_streams inv_key2Dec key2Dec.err _ key2Dec.out, by decide⟩

theorem witness_CellsBeyondCapStayZero :
    Inv (sent key2Dec 0x33000000) ∧ CellsBeyondCap (sent key2Dec 0x33000000) ∧
    (nextOf (step (sent key2Dec 0x33000000))).isSome = true :=
  ⟨inv_of_streams inv_key2Dec key2Dec.err _ key2Dec.out, (by constructor <;> decide), by decide⟩

/-- `affineEnc` with other content where no rule can see it. -/
def affineEncStale : State :=
  { affineEnc with det := 5, dinv := 3, ki := Mat.set zeroMat 0 0 9, ln := Vec.set zeroVec 0 4, ib := Vec.set zeroVec 0 2 }

theorem witness_StaleContentUnobservable :
    Inv (sent affineEnc 0x32000061) ∧ Inv (sent affineEncStale 0x32000061) ∧
    SameObservable (sent affineEnc 0x32000061) (sent affineEncStale 0x32000061) ∧ affineEnc ≠ affineEncStale ∧
    (nextOf (step (sent affineEnc 0x32000061))).isSome = true :=
  ⟨inv_of_streams inv_affineEnc affineEnc.err _ affineEnc.out, (by constructor <;> decide), (by constructor <;> decide),
    by decide, by decide⟩

theorem witness_KeyLoadIsIdempotent :
    isKeyLoad (.ldk 3 3 (-1)) = true ∧ unit4.mode = .idle ∧ operandsLegal unit4 (.ldk 3 3 (-1)) = true := by decide

theorem witness_KeyIsFixedDuringASession :
    (sent affineDec 0x12000005).cmd = [.word 0x12000005] ∧ (sent affineDec 0x12000005).mode ≠ .idle ∧
    decode 0x12000005 = .ok (.ldk 0 0 5) ∧ isKeyLoad (.ldk 0 0 5) = true ∧ decode 0x33000000 = .ok .endText := by decide

theorem witness_OnlyTheKeyPartIsRead :
    (∀ a < key2.kdim, ∀ b < key2.kdim, Mat.get (Mat.set key2.km 2 0 9) a b = Mat.get key2.km a b) ∧
    (∀ a < key2.kdim, Vec.get (Vec.set key2.sv 2 9) a = Vec.get key2.sv a) ∧ Mat.set key2.km 2 0 9 ≠ key2.km := by decide

theorem witness_KeyLoadOrderIndependence :
    unit4.mode = .idle ∧ unit4.cap ≤ 16 ∧
    ∀ i ∈ [Instr.ldk 3 3 1, .setkd 4, .ldl 3 2, .setld 1, .ldk 3 3 2], isKeyLoad i = true ∧ operandsLegal unit4 i = true := by
  decide

theorem witness_UnitsHaveOneInverse :
    isUnit26 (mod26 (-1)) = true ∧ (-1 : Int) * resVal 25 % 26 = 1 ∧ isUnit26 (mod26 13) = false := by decide

theorem witness_AdjugateIdentity : 0 < 16 ∧ 15 < 16 := by decide

theorem witness_EarlyReductionChangesNothing :
    ∀ i : Nat, i < 2 → ∀ j : Nat, j < 2 → mod26 ((i : Int) - 26 * j) = mod26 ((i : Int) + 52 * j) := by decide

theorem witness_InverseIsTheOnlyOne :
    (1 ≤ 1 ∧ (inverseMod26 1 fun _ _ => 7).isSome = true) ∧
    ∀ i < 1, ∀ j < 1, mod26 (sumTo 1 fun _ => 7 * resVal 15) = if i = j then 1 else 0 := by decide

theorem witness_InvertibilityGate :
    (key2.mode = .idle ∧ 1 ≤ key2.kdim ∧ key2.kdim ≤ 16) ∧
    (nextOf (exec .inv key2)).map (fun t => t.err) = some .success := by decide

theorem witness_RecomputationMayBeSkipped : Inv affineInv ∧ affineInv.kiv = true := ⟨inv_affineInv, by decide⟩

theorem witness_CodecRoundTrip : (0x61 ≤ 0x61 ∧ 0x7A ≤ 0x7A) ∧ (0x60 < 0x61 ∨ 0x7A < 0x60) ∧ 0x7A < 0x7B := by decide

theorem witness_DecryptUndoesEncrypt :
    1 ≤ 2 ∧ isInvertibleMod26 2 (intMatrix fun i j => Mat.get key2.km i j) = true ∧
    ([1, 2] : List Residue).length = 2 ∧ ([1, 2, 0] : List Residue).length ≠ 2 := by decide

/-- The moves of a session over the codes `cs`. -/
def encrypting (s : State) (cs : List Nat) : State := { s with cmd := asMoves (expandEncrypt cs) }

/-- The moves of a decrypt session over the codes `cs`. -/
def decrypting (s : State) (cs : List Nat) : State := { s with cmd := asMoves (expandDecrypt cs) }

theorem witness_EncryptSessionComputesEncrypt :
    Inv (encrypting key2 [0x68, 0x65, 0x6C]) ∧ key2.mode = .idle ∧ key2.ldim = key2.kdim ∧
    (encrypting key2 [0x68, 0x65, 0x6C]).cmd =
      asMoves (expandEncrypt (([7, 4, 11] : List Residue).map fun r => 0x61 + r.val)) ++ [] :=
  ⟨inv_of_streams inv_key2 key2.err _ key2.out, rfl, rfl, by decide⟩

/-- The three outcomes: a result, a length that is no multiple of `KDIM`, a key without an inverse. -/
theorem witness_DecryptSessionComputesDecrypt :
    (Inv (decrypting key2 [0x61, 0x7A]) ∧ Inv (decrypting key2 [0x61]) ∧ Inv (decrypting unit4 [0x61])) ∧
    (key2.mode = .idle ∧ key2.ldim = key2.kdim ∧ unit4.mode = .idle ∧ unit4.ldim = unit4.kdim) ∧
    (decrypting key2 [0x61, 0x7A]).cmd =
      asMoves (expandDecrypt (([0, 25] : List Residue).map fun r => 0x61 + r.val)) ++ [] ∧
    (decrypt 2 (Mat.get key2.km) (shiftVector key2) [0, 25]).toOption.isSome = true ∧
    decrypt 2 (Mat.get key2.km) (shiftVector key2) [0] = .error .dimensionMismatch ∧
    decrypt 1 (Mat.get unit4.km) (shiftVector unit4) [0] = .error .notInvertible :=
  ⟨⟨inv_of_streams inv_key2 key2.err _ key2.out, inv_of_streams inv_key2 key2.err _ key2.out,
    (by constructor <;> decide)⟩, by decide, by decide, by decide, by decide, by decide⟩

theorem witness_FirstBadLetterEndsTheSession :
    Inv ({ key2Enc with cmd := asMoves (expandText (([4] : List Residue).map fun r => 0x61 + r.val) ++
      .put 0x7B :: expandText [0xFFFF] ++ [.endText]) } : State) ∧
    key2Enc.mode ≠ .idle ∧ (0x7B < 0x61 ∨ 0x7A < 0x7B) ∧ 0x7B < 65536 ∧ ∀ x ∈ [0xFFFF], x < 65536 :=
  ⟨inv_of_streams inv_key2Enc key2Enc.err _ key2Enc.out, by decide, by decide, by decide, by decide⟩

theorem witness_MismatchedDimensionsOpenNoSession :
    Inv (encrypting { key2 with ldim := 1 } [0x61]) ∧ Inv (decrypting { key2 with ldim := 1 } [0x61]) ∧
    ({ key2 with ldim := 1 } : State).mode = .idle ∧ ({ key2 with ldim := 1 } : State).ldim ≠ key2.kdim ∧
    ∀ c ∈ [0x61], c < 65536 :=
  ⟨(by constructor <;> decide), (by constructor <;> decide), rfl, by decide, by decide⟩

theorem witness_SessionsRoundTrip :
    Inv { key2 with cmd := asMoves (expandEncrypt [0x68] ++ expandDecrypt [0x74, 0x6C]) } ∧
    key2.mode = .idle ∧ key2.ldim = key2.kdim ∧ isInvertibleMod26 key2.kdim (keyMatrix key2) = true ∧
    encrypt 2 (Mat.get key2.km) (shiftVector key2) [7] = .ok [19, 11] ∧
    [0x74, 0x6C] = ([19, 11] : List Residue).map fun r => 0x61 + r.val :=
  ⟨inv_of_streams inv_key2 key2.err _ key2.out, rfl, rfl, by decide, by decide, by decide⟩

theorem witness_ExpansionsLoadKeyAndShift :
    unit4.mode = .idle ∧ unit4.cap ≤ 16 ∧ 4 ≤ unit4.cap ∧ 1 ≤ ([1, 2, 3, 4] : List Int).length ∧
    (expandKey [[1, 2, 3, 4], [0, 1, 2, 3], [0, 0, 1, 2], [5, 0, 0, -27]]).isSome = true := by decide

end Sys2Proof.Tests
end

section
/-! PROOF. The statement about spec/00_scope.md: floor-modulo by 26 (R5). -/

namespace Sys2Proof.Machine

theorem dvd_sub_resVal_mod26 (x : Int) : (26 : Int) ∣ x - resVal (mod26 x) := by
  rw [resVal_mod26]
  exact Int.dvd_self_sub_emod

/-- An integer from 0 to 25 is its own remainder, so congruence to `x` modulo 26 determines it. -/
theorem eq_resVal_mod26 {x r : Int} (h0 : 0 ≤ r) (h25 : r ≤ 25) (hd : (26 : Int) ∣ x - r) :
    r = resVal (mod26 x) :=
  calc r = r % 26 := (Int.emod_eq_of_lt h0 (Int.lt_add_one_of_le h25)).symm
    _ = x % 26 := Int.modEq_iff_dvd.2 hd
    _ = resVal (mod26 x) := (resVal_mod26 x).symm

/-- Settles O44: the range is that of every residue, divisibility and uniqueness are the two lemmas above, and the
five values of R5 are computed. -/
theorem mod26IsFloorModulo : Obligations.Mod26IsFloorModulo := by
  refine ⟨fun x => ?_, by decide⟩
  obtain ⟨hnonneg, hle⟩ := resVal_range (mod26 x)
  exact ⟨hnonneg, hle, dvd_sub_resVal_mod26 x, fun _ => eq_resVal_mod26⟩

end Sys2Proof.Machine
end

section
/-! PROOF. What a command does to the state, said once: `Effect` has one constructor for each way a command can end,
and `exec` answers `next t` exactly when one of them leads to `t`. -/

namespace Sys2Proof.Machine

/-- The outcomes of the eleven commands, one constructor for each path through their meanings. -/
inductive Effect (s : State) : Instr → State → Prop where
  /-- `refuse()`: the mode does not accept the command or an operand is illegal (spec/60_exceptions.md R145, R146) -/
  | refused (i : Instr) (bad : acceptedIn s.mode i = false ∨ operandsLegal s i = false) :
      Effect s i (refuse i.opcode s)
  | setkd (k : Nat) (idle : s.mode = .idle) (legal : legalDim k s = true) :
      Effect s (.setkd k) (succeed k (clearKeyFlags { s with kdim := k }))
  | setld (k : Nat) (idle : s.mode = .idle) (legal : legalDim k s = true) :
      Effect s (.setld k) (succeed k { s with ldim := k })
  | ldk (row col : Nat) (v : Int) (idle : s.mode = .idle) (rowLegal : legalIndex row s = true)
      (colLegal : legalIndex col s = true) :
      Effect s (.ldk row col v)
        (succeed (mod26 v).val (clearKeyFlags { s with km := Mat.set s.km row col (mod26 v) }))
  | ldl (row : Nat) (v : Int) (idle : s.mode = .idle) (legal : legalIndex row s = true) :
      Effect s (.ldl row v) (succeed (mod26 v).val { s with sv := Vec.set s.sv row (mod26 v) })
  | chk (idle : s.mode = .idle) : Effect s .chk (succeed (detData (computeDet s)) (computeDet s))
  | invFails (idle : s.mode = .idle) (noUnit : isUnit26 (keyDet s) = false) :
      Effect s .inv (raise .notInvertible (computeInverse s))
  | invStores (idle : s.mode = .idle) (isUnit : isUnit26 (keyDet s) = true) :
      Effect s .inv (succeed (1 + 256 * (keyDet s).val) (computeInverse s))
  | encbMismatch (idle : s.mode = .idle) (dims : s.ldim ≠ s.kdim) : Effect s .encb (raise .dimensionMismatch s)
  | encbOpens (idle : s.mode = .idle) (dims : s.ldim = s.kdim) :
      Effect s .encb (succeed s.kdim { s with mode := .enc, cnt := 0 })
  | decbFails (idle : s.mode = .idle) (noUnit : isUnit26 (keyDet s) = false) :
      Effect s .decb (raise .notInvertible (computeInverse s))
  | decbMismatch (idle : s.mode = .idle) (isUnit : isUnit26 (keyDet s) = true) (dims : s.ldim ≠ s.kdim) :
      Effect s .decb (raise .dimensionMismatch (computeInverse s))
  | decbOpens (idle : s.mode = .idle) (isUnit : isUnit26 (keyDet s) = true) (dims : s.ldim = s.kdim) :
      Effect s .decb (succeed s.kdim { storeShift (computeInverse s) with mode := .dec, cnt := 0 })
  | putBad (c : Nat) (session : s.mode ≠ .idle) (noLetter : toResidue c = none) :
      Effect s (.put c) (raiseInSession .invalidSymbol s)
  | putFlushes (c : Nat) (r : Residue) (session : s.mode ≠ .idle) (letter : toResidue c = some r)
      (full : s.cnt + 1 = s.kdim) : Effect s (.put c) (succeed s.kdim (flushBlock (takeLetter r s)))
  | putTakes (c : Nat) (r : Residue) (session : s.mode ≠ .idle) (letter : toResidue c = some r)
      (notFull : s.cnt + 1 ≠ s.kdim) : Effect s (.put c) (succeed 0 (takeLetter r s))
  | endFlushes (enc : s.mode = .enc) (partBlock : 0 < s.cnt) :
      Effect s .endText (succeed s.kdim { flushBlock (padBlock s) with mode := .idle })
  | endMismatch (dec : s.mode = .dec) (partBlock : 0 < s.cnt) :
      Effect s .endText (raiseInSession .dimensionMismatch s)
  | endCloses (session : s.mode ≠ .idle) (empty : s.cnt = 0) :
      Effect s .endText (succeed 0 { s with mode := .idle })
  | rd (reg row col : Nat) (v : Data) (legal : readReg reg row col s = some v) :
      Effect s (.rd reg row col) (respond .success v s)

/-! ### `Effect` and `exec` -/

/-- The common shape of the key loads: without both guards the refusal is answered. -/
theorem ite_of_guard_false {α : Type} {p q : Prop} [Decidable p] [Decidable q] (refusal accepted : α)
    (bad : ¬p ∨ ¬q) : (if ¬p then refusal else if q then accepted else refusal) = refusal := by
  by_cases hp : p
  · rw [if_neg (not_not.mpr hp), if_neg (bad.resolve_left (not_not.mpr hp))]
  · rw [if_pos hp]

/-- A command its mode does not accept, or with an illegal operand, is refused (spec/60_exceptions.md R145, R146). -/
theorem exec_refused {i : Instr} {s : State} (bad : acceptedIn s.mode i = false ∨ operandsLegal s i = false) :
    exec i s = .next (refuse i.opcode s) := by
  cases i with
  | setkd k => exact ite_of_guard_false _ _ (by simpa [acceptedIn, operandsLegal] using bad)
  | setld k => exact ite_of_guard_false _ _ (by simpa [acceptedIn, operandsLegal] using bad)
  | ldk row col v =>
    exact ite_of_guard_false _ _ (by simpa [acceptedIn, operandsLegal, ← Bool.not_eq_true] using bad)
  | ldl row v => exact ite_of_guard_false _ _ (by simpa [acceptedIn, operandsLegal] using bad)
  | chk => exact if_pos (by simpa [acceptedIn, operandsLegal] using bad)
  | inv => exact if_pos (by simpa [acceptedIn, operandsLegal] using bad)
  | encb => exact if_pos (by simpa [acceptedIn, operandsLegal] using bad)
  | decb => exact if_pos (by simpa [acceptedIn, operandsLegal] using bad)
  | put c => exact if_pos (by simpa [acceptedIn, operandsLegal] using bad)
  | endText =>
    have idle : s.mode = .idle := by simpa [acceptedIn, operandsLegal] using bad
    simp [exec, execEnd, idle, Instr.opcode]
  | rd reg row col =>
    have illegal : readReg reg row col s = none := by simpa [acceptedIn, operandsLegal] using bad
    simp [exec, execRd, illegal, Instr.opcode]

/-- Every outcome is what `exec` answers. -/
theorem Effect.exec_eq {s t : State} {i : Instr} (h : Effect s i t) : exec i s = .next t := by
  cases h with
  | refused _ bad => exact exec_refused bad
  | setkd k idle legal => simp [exec, execSetkd, idle, legal]
  | setld k idle legal => simp [exec, execSetld, idle, legal]
  | ldk row col v idle rowLegal colLegal => simp [exec, execLdk, idle, rowLegal, colLegal]
  | ldl row v idle legal => simp [exec, execLdl, idle, legal]
  | chk idle => simp [exec, execChk, idle]
  | invFails idle noUnit => simp [exec, execInv, idle, noUnit]
  | invStores idle isUnit => simp [exec, execInv, idle, isUnit]
  | encbMismatch idle dims => simp [exec, execEncb, idle, dims]
  | encbOpens idle dims => simp [exec, execEncb, idle, dims]
  | decbFails idle noUnit => simp [exec, execDecb, idle, noUnit]
  | decbMismatch idle isUnit dims => simp [exec, execDecb, idle, isUnit, dims]
  | decbOpens idle isUnit dims => simp [exec, execDecb, idle, isUnit, dims]
  | putBad c session noLetter => simp [exec, execPut, session, noLetter]
  | putFlushes c r session letter full => simp [exec, execPut, session, letter, full]
  | putTakes c r session letter notFull => simp [exec, execPut, session, letter, notFull]
  | endFlushes enc partBlock => simp [exec, execEnd, enc, partBlock]
  | endMismatch dec partBlock => simp [exec, execEnd, dec, partBlock]
  | endCloses session empty =>
    cases mode : s.mode with
    | idle => exact absurd mode session
    | enc => simp [exec, execEnd, mode, empty]
    | dec => simp [exec, execEnd, mode, empty]
  | rd reg row col v legal => simp [exec, execRd, legal]

/-- An accepted command with legal operands has an outcome. -/
theorem exists_effect_of_accepted {i : Instr} {s : State} (acc : acceptedIn s.mode i = true)
    (legal : operandsLegal s i = true) : ∃ t, Effect s i t := by
  cases i with
  | setkd k => exact ⟨_, .setkd k (by simpa [acceptedIn] using acc) legal⟩
  | setld k => exact ⟨_, .setld k (by simpa [acceptedIn] using acc) legal⟩
  | ldk row col v =>
    obtain ⟨rowLegal, colLegal⟩ := Bool.and_eq_true_iff.mp legal
    exact ⟨_, .ldk row col v (by simpa [acceptedIn] using acc) rowLegal colLegal⟩
  | ldl row v => exact ⟨_, .ldl row v (by simpa [acceptedIn] using acc) legal⟩
  | chk => exact ⟨_, .chk (by simpa [acceptedIn] using acc)⟩
  | inv =>
    have idle : s.mode = .idle := by simpa [acceptedIn] using acc
    cases isUnit : isUnit26 (keyDet s) with
    | false => exact ⟨_, .invFails idle isUnit⟩
    | true => exact ⟨_, .invStores idle isUnit⟩
  | encb =>
    have idle : s.mode = .idle := by simpa [acceptedIn] using acc
    by_cases dims : s.ldim = s.kdim
    · exact ⟨_, .encbOpens idle dims⟩
    · exact ⟨_, .encbMismatch idle dims⟩
  | decb =>
    have idle : s.mode = .idle := by simpa [acceptedIn] using acc
    cases isUnit : isUnit26 (keyDet s) with
    | false => exact ⟨_, .decbFails idle isUnit⟩
    | true =>
      by_cases dims : s.ldim = s.kdim
      · exact ⟨_, .decbOpens idle isUnit dims⟩
      · exact ⟨_, .decbMismatch idle isUnit dims⟩
  | put c =>
    have session : s.mode ≠ .idle := by simpa [acceptedIn] using acc
    cases letter : toResidue c with
    | none => exact ⟨_, .putBad c session letter⟩
    | some r =>
      by_cases full : s.cnt + 1 = s.kdim
      · exact ⟨_, .putFlushes c r session letter full⟩
      · exact ⟨_, .putTakes c r session letter full⟩
  | endText =>
    have session : s.mode ≠ .idle := by simpa [acceptedIn] using acc
    obtain empty | partBlock := Nat.eq_zero_or_pos s.cnt
    · exact ⟨_, .endCloses session empty⟩
    · cases mode : s.mode with
      | idle => exact absurd mode session
      | enc => exact ⟨_, .endFlushes mode partBlock⟩
      | dec => exact ⟨_, .endMismatch mode partBlock⟩
  | rd reg row col =>
    obtain ⟨v, read⟩ := Option.isSome_iff_exists.mp legal
    exact ⟨_, .rd reg row col v read⟩

/-- Every command has an outcome in every state. -/
theorem exists_effect (s : State) (i : Instr) : ∃ t, Effect s i t := by
  by_cases acc : acceptedIn s.mode i = true
  · by_cases legal : operandsLegal s i = true
    · exact exists_effect_of_accepted acc legal
    · exact ⟨_, .refused i (.inr (Bool.not_eq_true _ ▸ legal))⟩
  · exact ⟨_, .refused i (.inl (Bool.not_eq_true _ ▸ acc))⟩

/-- The outcomes are all that `exec` answers. -/
theorem exec_eq_next_iff {i : Instr} {s t : State} : exec i s = .next t ↔ Effect s i t := by
  refine ⟨fun h => ?_, Effect.exec_eq⟩
  obtain ⟨u, hu⟩ := exists_effect s i
  obtain rfl : t = u := by simpa [hu.exec_eq] using h.symm
  exact hu

/-- An outcome written in another way. -/
theorem Effect.of_eq {s t u : State} {i : Instr} (h : Effect s i t) (eq : t = u) : Effect s i u := eq ▸ h

/-! ### The four kinds of step -/

theorem step_of_nil {s : State} (h : s.cmd = []) : step s = .next s := by simp [step, h, hold]

theorem step_of_rst {s : State} {rest : List HostMove} (h : s.cmd = .rst :: rest) :
    step s = .next (applyReset { s with cmd := rest }) := by simp [step, h]

theorem step_of_decode {s : State} {w : CmdWord} {rest : List HostMove} {i : Instr} (h : s.cmd = .word w :: rest)
    (hi : decode w = .ok i) : step s = exec i { s with cmd := rest } := by simp [step, h, hi]

theorem step_of_undecodable {s : State} {w : CmdWord} {rest : List HostMove} (h : s.cmd = .word w :: rest)
    (hw : ∀ i, decode w ≠ .ok i) : step s = .next (refuseWord w { s with cmd := rest }) := by
  cases hd : decode w with
  | ok i => exact absurd hd (hw i)
  | error r => simp [step, h, hd]

/-- All that a step can do: hold the state, reset, run a decoded command, refuse a word (spec/20_memory.md R43). -/
inductive StepEffect (s : State) : State → Prop where
  | held (empty : s.cmd = []) : StepEffect s s
  | reset (rest : List HostMove) (move : s.cmd = .rst :: rest) : StepEffect s (applyReset { s with cmd := rest })
  | ran (w : CmdWord) (rest : List HostMove) (i : Instr) (t : State) (move : s.cmd = .word w :: rest)
      (decoded : decode w = .ok i) (effect : Effect { s with cmd := rest } i t) : StepEffect s t
  | refusedWord (w : CmdWord) (rest : List HostMove) (move : s.cmd = .word w :: rest)
      (undecodable : ∀ i, decode w ≠ .ok i) : StepEffect s (refuseWord w { s with cmd := rest })

theorem StepEffect.step_eq {s t : State} (h : StepEffect s t) : step s = .next t := by
  cases h with
  | held empty => exact step_of_nil empty
  | reset rest move => exact step_of_rst move
  | ran w rest i t move decoded effect => rw [step_of_decode move decoded, effect.exec_eq]
  | refusedWord w rest move undecodable => exact step_of_undecodable move undecodable

/-- A word either decodes or does not. -/
theorem exists_stepEffect_of_word {s : State} {w : CmdWord} {rest : List HostMove} (move : s.cmd = .word w :: rest) :
    ∃ t, StepEffect s t := by
  cases hd : decode w with
  | ok i =>
    obtain ⟨t, ht⟩ := exists_effect { s with cmd := rest } i
    exact ⟨t, .ran w rest i t move hd ht⟩
  | error r => exact ⟨_, .refusedWord w rest move (by simp [hd])⟩

theorem exists_stepEffect (s : State) : ∃ t, StepEffect s t := by
  match move : s.cmd with
  | [] => exact ⟨s, .held move⟩
  | .rst :: rest => exact ⟨_, .reset rest move⟩
  | .word w :: rest => exact exists_stepEffect_of_word move

theorem step_eq_next_iff {s t : State} : step s = .next t ↔ StepEffect s t := by
  refine ⟨fun h => ?_, StepEffect.step_eq⟩
  obtain ⟨u, hu⟩ := exists_stepEffect s
  obtain rfl : t = u := by simpa [hu.step_eq] using h.symm
  exact hu

end Sys2Proof.Machine
end

section
/-! PROOF. The invariants of spec/10_state.md R25: one lemma for each update that touches a field they look at, then
command by command and step by step. -/

namespace Sys2Proof.Machine

/-! ### Reset -/

@[simp] theorem keyDet_resetFor (kmax : Nat) : keyDet (State.resetFor kmax) = 0 := by
  simp [keyDet, keyMatrix, intMatrix, State.resetFor, det, sumTo, altSign, resVal, mod26]

/-- No field of `SR` depends on `KMAX`. -/
@[simp] theorem statusReg_resetFor (kmax : Nat) : statusReg (State.resetFor kmax) = 0x0000 :=
  (by decide : statusReg (State.resetFor 0) = 0x0000)

theorem inv_resetFor {kmax : Nat} (legal : Config.legalKmax kmax = true) : Inv (State.resetFor kmax) := by
  have hk : 1 ≤ kmax := by simp only [Config.legalKmax, Bool.and_eq_true, decide_eq_true_eq] at legal; exact legal.1
  exact
    { capLegal := legal
      kdimRange := ⟨Nat.le_refl 1, hk⟩
      ldimRange := ⟨Nat.le_refl 1, hk⟩
      cntRange := Nat.one_pos
      cntIdle := fun _ => rfl
      detCurrent := nofun
      detStale := fun _ => rfl
      kivFlags := nofun
      kiCurrent := nofun
      sessionDims := fun session => absurd rfl session
      decInverse := nofun
      decShift := nofun }

/-- Settles O36: the `KMAX` of `State.reset` is legal. -/
theorem invariantAtReset : Obligations.InvariantAtReset := inv_resetFor rfl

/-- Settles O12: every field is written out in `State.resetFor`; the determinant of the reset key is 0. -/
theorem resetValues : Obligations.ResetValues := by
  refine ⟨fun kmax => ?_, resetKmax, rfl, rfl⟩
  refine ⟨Mat.get_zeroMat, Vec.get_zeroVec, Mat.get_zeroMat, Vec.get_zeroVec, Vec.get_zeroVec, rfl, rfl, rfl, rfl, rfl,
    rfl, rfl, rfl, rfl, rfl, statusReg_resetFor kmax, ?_⟩
  rw [keyDet_resetFor]
  rfl

/-! ### The updates -/

theorem inv_respond {s : State} (h : Inv s) (e : ErrCode) (d : Data) : Inv (respond e d s) := inv_of_streams h _ _ _

theorem inv_answer {s : State} (h : Inv s) (e : ErrCode) (d : Data) : Inv (answer e d s) := inv_of_streams h _ _ _

theorem inv_refuse {s : State} (h : Inv s) (op : BitVec 8) : Inv (refuse op s) := by
  unfold refuse
  split
  · exact inv_respond h _ _
  · exact inv_respond (inv_of_streams h _ _ _) _ _

theorem inv_applyReset {s : State} (h : Inv s) : Inv (applyReset s) := inv_of_streams (inv_resetFor h.capLegal) _ _ _

/-- A new key leaves nothing for the key flags to claim. -/
theorem inv_newKey {s : State} (h : Inv s) (idle : s.mode = .idle) (m : Mat) {k : Nat} (hk : 1 ≤ k ∧ k ≤ s.cap) :
    Inv (clearKeyFlags { s with km := m, kdim := k }) :=
  { h with
    kdimRange := hk
    cntRange := (h.cntIdle idle).trans_lt hk.1
    detCurrent := nofun
    detStale := fun _ => rfl
    kivFlags := nofun
    kiCurrent := nofun
    sessionDims := fun session => absurd idle session
    decInverse := fun dec => absurd (idle.symm.trans dec) nofun
    decShift := fun dec => absurd (idle.symm.trans dec) nofun }

/-- Outside a session nothing looks at the shift vector. -/
theorem inv_newShift {s : State} (h : Inv s) (idle : s.mode = .idle) (v : Vec) {k : Nat} (hk : 1 ≤ k ∧ k ≤ s.cap) :
    Inv { s with sv := v, ldim := k } :=
  { h with
    ldimRange := hk
    sessionDims := fun session => absurd idle session
    decShift := fun dec => absurd (idle.symm.trans dec) nofun }

theorem inv_computeDet {s : State} (h : Inv s) : Inv (computeDet s) :=
  { h with
    detCurrent := fun _ => ⟨rfl, isUnit26_iff _⟩
    detStale := nofun
    kivFlags := fun hkiv => by
      obtain ⟨hdetv, hunit, hdinv⟩ := h.kivFlags hkiv
      obtain ⟨hdet, hgcd⟩ := h.detCurrent hdetv
      have key : keyDet s = s.det := hdet.symm
      refine ⟨rfl, ?_, ?_⟩
      · rw [computeDet_unit, key, isUnit26_iff]
        exact hgcd.mp hunit
      · rw [computeDet_dinv, computeDet_det, key, hdinv] }

/-- In an open decrypt session `KIV` is set, so the inverse is stored outside one only (spec/42_hill_engine.md R111). -/
theorem inv_computeInverse {s : State} (h : Inv s) (idle : s.mode = .idle) : Inv (computeInverse s) := by
  have notDec : s.mode ≠ .dec := by simp [idle]
  cases isUnit : isUnit26 (keyDet s) with
  | false =>
    rw [computeInverse_of_not_unit s isUnit]
    exact { inv_computeDet h with kivFlags := nofun, kiCurrent := nofun, decInverse := fun dec => absurd dec notDec }
  | true =>
    rw [computeInverse_of_unit s isUnit]
    exact
      { inv_computeDet h with
        kivFlags := fun _ => ⟨rfl, isUnit, rfl⟩
        kiCurrent := fun _ i hi j hj => by
          have hcap := cap_le_of_inv h
          have hkdim : s.kdim ≤ s.cap := h.kdimRange.2
          simp only [storeInverse_kdim, computeDet_kdim] at hi hj
          rw [storeInverse_ki, Mat.get_fill, if_pos (by simp only [computeDet_kdim]; omega)]
          rfl
        decInverse := fun _ => rfl
        decShift := fun dec => absurd dec notDec }

/-- The state in which a session opens, but for `LN` (spec/42_hill_engine.md R110). -/
theorem inv_openEnc {s : State} (h : Inv s) (dims : s.ldim = s.kdim) : Inv { s with mode := .enc, cnt := 0 } :=
  { h with
    cntRange := h.kdimRange.1
    cntIdle := nofun
    sessionDims := fun _ => dims
    decInverse := nofun
    decShift := nofun }

/-- With a current inverse, storing the transformed shift is what opening a decrypt session takes (R111). -/
theorem inv_openDec {s : State} (h : Inv s) (kiv : s.kiv = true) (dims : s.ldim = s.kdim) :
    Inv { storeShift s with mode := .dec, cnt := 0 } :=
  { h with
    cntRange := h.kdimRange.1
    cntIdle := nofun
    sessionDims := fun _ => dims
    decInverse := fun _ => kiv
    decShift := fun _ i hi => by
      have hcap := cap_le_of_inv h
      have hkdim : s.kdim ≤ s.cap := h.kdimRange.2
      simp only [storeShift_kdim] at hi
      simp only [storeShift_ln]
      rw [Vec.get_fill, if_pos (by omega)]
      rfl }

/-- Within a session the block buffer may be filled up to any number of letters below `KDIM`. -/
theorem inv_fillBlock {s : State} (h : Inv s) (session : s.mode ≠ .idle) (b : Vec) {n : Nat} (hn : n < s.kdim) :
    Inv { s with ib := b, cnt := n } :=
  { h with cntRange := hn, cntIdle := fun idle => absurd idle session }

theorem inv_closeSession {s : State} (h : Inv s) : Inv { s with mode := .idle, cnt := 0 } :=
  { h with
    cntRange := h.kdimRange.1
    cntIdle := fun _ => rfl
    sessionDims := fun session => absurd rfl session
    decInverse := nofun
    decShift := nofun }

/-! ### Commands and steps -/

/-- Every command keeps the invariants of R25. -/
theorem Effect.inv {s t : State} {i : Instr} (effect : Effect s i t) (h : Inv s) : Inv t := by
  cases effect with
  | refused _ _ => exact inv_refuse h _
  | setkd k idle legal => exact inv_answer (inv_newKey h idle s.km ((legalDim_iff k s).mp legal)) _ _
  | setld k idle legal => exact inv_answer (inv_newShift h idle s.sv ((legalDim_iff k s).mp legal)) _ _
  | ldk row col v idle _ _ => exact inv_answer (inv_newKey h idle _ h.kdimRange) _ _
  | ldl row v idle _ => exact inv_answer (inv_newShift h idle _ h.ldimRange) _ _
  | chk _ => exact inv_answer (inv_computeDet h) _ _
  | invFails idle _ => exact inv_answer (inv_computeInverse h idle) _ _
  | invStores idle _ => exact inv_answer (inv_computeInverse h idle) _ _
  | encbMismatch _ _ => exact inv_answer h _ _
  | encbOpens _ dims => exact inv_answer (inv_openEnc h dims) _ _
  | decbFails idle _ => exact inv_answer (inv_computeInverse h idle) _ _
  | decbMismatch idle _ _ => exact inv_answer (inv_computeInverse h idle) _ _
  | decbOpens idle isUnit dims =>
    exact inv_answer (inv_openDec (inv_computeInverse h idle) (by simpa using isUnit) (by simpa using dims)) _ _
  | putBad c _ _ => exact inv_answer (inv_closeSession h) _ _
  | putFlushes c r session _ _ => exact inv_of_streams (inv_fillBlock h session _ h.kdimRange.1) _ _ _
  | putTakes c r session _ notFull =>
    exact inv_answer (inv_fillBlock h session _ (Nat.lt_of_le_of_ne h.cntRange notFull)) _ _
  | endFlushes enc _ =>
    have session : s.mode ≠ .idle := by simp [enc]
    exact inv_of_streams (inv_closeSession (inv_fillBlock h session _ h.kdimRange.1)) _ _ _
  | endMismatch _ _ => exact inv_answer (inv_closeSession h) _ _
  | endCloses _ empty =>
    have closed := inv_closeSession h
    rw [← empty] at closed
    exact inv_answer closed _ _
  | rd _ _ _ _ _ => exact inv_respond h _ _

/-- Every step keeps the invariants of R25. -/
theorem StepEffect.inv {s t : State} (effect : StepEffect s t) (h : Inv s) : Inv t := by
  cases effect with
  | held _ => exact h
  | reset rest _ => exact inv_applyReset (inv_of_streams h _ _ _)
  | ran w rest i _ _ _ ran => exact ran.inv (inv_of_streams h _ _ _)
  | refusedWord w rest _ _ => exact inv_refuse (inv_of_streams h _ _ _) _

/-- Settles O37: at reset by `inv_resetFor`, and every kind of step keeps the invariants. -/
theorem invariantKept : Obligations.InvariantKept :=
  ⟨fun _ legal => inv_resetFor legal, fun _ _ h next => (step_eq_next_iff.mp next).inv h⟩

end Sys2Proof.Machine
end

section
/-! PROOF. What the computations of the unit read: the `KDIM` by `KDIM` part of a matrix, the elements of a vector
below `KDIM`, and nothing of `ERR` (spec/10_state.md R11, R12, R20). -/

namespace Sys2Proof.Machine

/-! ### The functions -/

theorem Mat.fill_congr (m : Mat) {k : Nat} {f g : Nat → Nat → Residue} (h : ∀ i < k, ∀ j < k, f i j = g i j) :
    Mat.fill m k f = Mat.fill m k g := by
  apply Mat.ext
  intro i _ j _
  rw [Mat.get_fill, Mat.get_fill]
  split
  · next inPart =>
    obtain ⟨hi, hj, -⟩ := inPart
    exact h i hi j hj
  · rfl

theorem Vec.fill_congr (v : Vec) {lo hi : Nat} {f g : Nat → Residue} (h : ∀ i < hi, f i = g i) :
    Vec.fill v lo hi f = Vec.fill v lo hi g := by
  apply Vec.ext
  intro i _
  rw [Vec.get_fill, Vec.get_fill]
  split
  · next inRange =>
    obtain ⟨-, hi, -⟩ := inRange
    exact h i hi
  · rfl

/-- Row `i` of a matrix times a column looks below `k` only. -/
theorem sumTo_mul_congr {k : Nat} {K K' : Nat → Nat → Residue} {v v' : Nat → Residue}
    (hK : ∀ i < k, ∀ j < k, K i j = K' i j) (hv : ∀ j < k, v j = v' j) {i : Nat} (hi : i < k) :
    (sumTo k fun j => resVal (K i j) * resVal (v j)) = sumTo k fun j => resVal (K' i j) * resVal (v' j) :=
  sumTo_congr fun j hj => by rw [hK i hi j hj, hv j hj]

theorem transformedShift_congr {k : Nat} {K K' : Nat → Nat → Residue} {L L' : Nat → Residue}
    (hK : ∀ i < k, ∀ j < k, K i j = K' i j) (hL : ∀ j < k, L j = L' j) {i : Nat} (hi : i < k) :
    transformedShift k K L i = transformedShift k K' L' i := congrArg mod26 (sumTo_mul_congr hK hL hi)

/-- As `encblock_congr`, for the key matrix. -/
theorem encblock_congr_key {k : Nat} {K K' : Nat → Nat → Residue} (L v : Nat → Residue)
    (hK : ∀ i < k, ∀ j < k, K i j = K' i j) : encblock k K L v = encblock k K' L v := by
  apply List.map_congr_left
  intro i hi
  rw [sumTo_mul_congr hK (fun _ _ => rfl) (List.mem_range.mp hi)]

theorem decblock_congr {k : Nat} {K K' : Nat → Nat → Residue} {L L' v v' : Nat → Residue}
    (hK : ∀ i < k, ∀ j < k, K i j = K' i j) (hL : ∀ i < k, L i = L' i) (hv : ∀ i < k, v i = v' i) :
    decblock k K L v = decblock k K' L' v' := by
  apply List.map_congr_left
  intro i hi
  rw [hL i (List.mem_range.mp hi), sumTo_mul_congr hK hv (List.mem_range.mp hi)]

/-! ### The states -/

/-- The `KDIM` by `KDIM` key is the same in both states. -/
structure SameKey (s t : State) : Prop where
  kdim : t.kdim = s.kdim
  km : ∀ i < s.kdim, ∀ j < s.kdim, Mat.get t.km i j = Mat.get s.km i j

theorem SameKey.keyMatrix_eq {s t : State} (h : SameKey s t) :
    ∀ i < s.kdim, ∀ j < s.kdim, keyMatrix t i j = keyMatrix s i j :=
  fun i hi j hj => congrArg resVal (h.km i hi j hj)

theorem SameKey.keyDet_eq {s t : State} (h : SameKey s t) : keyDet t = keyDet s := by
  unfold keyDet
  rw [h.kdim, det_congr h.keyMatrix_eq]

theorem SameKey.keyInverse_eq {s t : State} (h : SameKey s t) {i j : Nat} (hi : i < s.kdim) (hj : j < s.kdim) :
    keyInverse t i j = keyInverse s i j := by
  unfold keyInverse
  rw [h.keyDet_eq, h.kdim, adj_congr h.keyMatrix_eq hi hj]

theorem SameKey.encOut_eq {s t : State} (h : SameKey s t)
    (sv : ∀ i < s.kdim, Vec.get t.sv i = Vec.get s.sv i) (ib : ∀ i < s.kdim, Vec.get t.ib i = Vec.get s.ib i) :
    encOut t = encOut s := by
  unfold encOut
  rw [h.kdim, encblock_congr_key _ _ h.km, encblock_congr _ sv ib]

theorem decOut_congr {s t : State} (kdim : t.kdim = s.kdim)
    (ki : ∀ i < s.kdim, ∀ j < s.kdim, Mat.get t.ki i j = Mat.get s.ki i j)
    (ln : ∀ i < s.kdim, Vec.get t.ln i = Vec.get s.ln i) (ib : ∀ i < s.kdim, Vec.get t.ib i = Vec.get s.ib i) :
    decOut t = decOut s := by
  unfold decOut
  rw [kdim, decblock_congr ki ln ib]

/-! ### Another key and shift at `KDIM` and above -/

/-- The state with another key matrix and another shift vector. -/
def State.withKey (s : State) (m : Mat) (v : Vec) : State := { s with km := m, sv := v }

theorem refuse_withKey (op : BitVec 8) (s : State) (m : Mat) (v : Vec) :
    refuse op (s.withKey m v) = (refuse op s).withKey m v := by
  unfold refuse
  split <;> rfl

section
variable {s : State} {m : Mat} {v : Vec} (hm : ∀ a < s.kdim, ∀ b < s.kdim, Mat.get m a b = Mat.get s.km a b)
  (hv : ∀ a < s.kdim, Vec.get v a = Vec.get s.sv a)

include hm in
theorem sameKey_withKey : SameKey s (s.withKey m v) := ⟨rfl, hm⟩

include hm in
theorem computeDet_withKey : computeDet (s.withKey m v) = (computeDet s).withKey m v := by
  unfold computeDet
  rw [(sameKey_withKey hm).keyDet_eq]
  rfl

include hm in
theorem storeInverse_withKey : storeInverse (s.withKey m v) = (storeInverse s).withKey m v := by
  have key : SameKey s (s.withKey m v) := sameKey_withKey hm
  have inverse : Mat.fill (s.withKey m v).ki (s.withKey m v).kdim (keyInverse (s.withKey m v)) =
      Mat.fill s.ki s.kdim (keyInverse s) := Mat.fill_congr _ fun i hi j hj => key.keyInverse_eq hi hj
  unfold storeInverse
  rw [key.keyDet_eq, inverse]
  rfl

include hm in
theorem computeInverse_withKey : computeInverse (s.withKey m v) = (computeInverse s).withKey m v := by
  have key : keyDet (s.withKey m v) = keyDet s := (sameKey_withKey hm).keyDet_eq
  cases isUnit : isUnit26 (keyDet s) with
  | false =>
    rw [computeInverse_of_not_unit s isUnit, computeInverse_of_not_unit _ (key ▸ isUnit), computeDet_withKey hm]
    rfl
  | true =>
    rw [computeInverse_of_unit s isUnit, computeInverse_of_unit _ (key ▸ isUnit), computeDet_withKey hm]
    exact storeInverse_withKey hm

include hv in
theorem storeShift_withKey : storeShift (s.withKey m v) = (storeShift s).withKey m v := by
  have shift : Vec.fill (s.withKey m v).ln 0 (s.withKey m v).kdim
        (transformedShift (s.withKey m v).kdim (Mat.get (s.withKey m v).ki) (Vec.get (s.withKey m v).sv)) =
      Vec.fill s.ln 0 s.kdim (transformedShift s.kdim (Mat.get s.ki) (Vec.get s.sv)) :=
    Vec.fill_congr _ fun i hi => transformedShift_congr (fun _ _ _ _ => rfl) hv hi
  unfold storeShift
  rw [shift]
  rfl

include hm hv in
theorem flushBlock_withKey : flushBlock (s.withKey m v) = (flushBlock s).withKey m v := by
  have block : blockOut (s.withKey m v) = blockOut s := by
    unfold blockOut
    rw [(sameKey_withKey hm).encOut_eq hv fun _ _ => rfl]
    rfl
  unfold flushBlock
  rw [block]
  rfl

include hm hv in
/-- A command that computes, or opens, feeds or closes a session, reads the key and the shift below `KDIM` only. -/
theorem Effect.withKey {i : Instr} {t : State} (effect : Effect s i t)
    (hi : i = .chk ∨ i = .inv ∨ i = .encb ∨ i = .decb ∨ (∃ c, i = .put c) ∨ i = .endText) :
    Effect (s.withKey m v) i (t.withKey m v) := by
  have key : keyDet (s.withKey m v) = keyDet s := (sameKey_withKey hm).keyDet_eq
  have inverse : computeInverse (s.withKey m v) = (computeInverse s).withKey m v := computeInverse_withKey hm
  cases effect with
  | refused _ bad =>
    refine Effect.of_eq (.refused i ?_) (refuse_withKey i.opcode s m v)
    obtain rfl | rfl | rfl | rfl | ⟨c, rfl⟩ | rfl := hi <;> exact bad
  | setkd | setld | ldk | ldl | rd => simp at hi
  | chk idle => exact Effect.of_eq (.chk idle) (congrArg (fun u => succeed (detData u) u) (computeDet_withKey hm))
  | invFails idle noUnit => exact Effect.of_eq (.invFails idle (key ▸ noUnit)) (congrArg (raise _) inverse)
  | invStores idle isUnit =>
    exact Effect.of_eq (.invStores idle (key ▸ isUnit)) (by rw [key, inverse]; rfl)
  | encbMismatch idle dims => exact .encbMismatch idle dims
  | encbOpens idle dims => exact .encbOpens idle dims
  | decbFails idle noUnit => exact Effect.of_eq (.decbFails idle (key ▸ noUnit)) (congrArg (raise _) inverse)
  | decbMismatch idle isUnit dims =>
    exact Effect.of_eq (.decbMismatch idle (key ▸ isUnit) dims) (congrArg (raise _) inverse)
  | decbOpens idle isUnit dims =>
    have shift : storeShift (computeInverse (s.withKey m v)) = (storeShift (computeInverse s)).withKey m v := by
      rw [inverse, storeShift_withKey (by simpa using hv)]
    exact Effect.of_eq (.decbOpens idle (key ▸ isUnit) dims)
      (congrArg (fun u : State => succeed s.kdim { u with mode := .dec, cnt := 0 }) shift)
  | putBad c session noLetter => exact .putBad c session noLetter
  | putFlushes c r session letter full =>
    exact Effect.of_eq (.putFlushes c r session letter full)
      (congrArg (succeed s.kdim) (flushBlock_withKey (s := takeLetter r s) hm hv))
  | putTakes c r session letter notFull => exact .putTakes c r session letter notFull
  | endFlushes enc partBlock =>
    exact Effect.of_eq (.endFlushes enc partBlock)
      (congrArg (fun u : State => succeed s.kdim { u with mode := .idle }) (flushBlock_withKey (s := padBlock s) hm hv))
  | endMismatch dec partBlock => exact .endMismatch dec partBlock
  | endCloses session empty => exact .endCloses session empty

end

/-- Settles O42: by `Effect.withKey`. -/
theorem onlyTheKeyPartIsRead : Obligations.OnlyTheKeyPartIsRead := by
  intro i s m v hi hm hv
  obtain ⟨t, effect⟩ := exists_effect s i
  exact ⟨t, effect.exec_eq, (effect.withKey hm hv hi).exec_eq⟩

end Sys2Proof.Machine
end

section
/-! PROOF. Stale content is never observable (spec/93_implementation_defined.md U10): every shared update takes two
states that differ only in stale content to two such states, and so do every command and every step. -/

namespace Sys2Proof.Machine

section
variable {s t : State}

/-! ### What both states agree on -/

theorem SameObservable.sameKey (h : SameObservable s t) : SameKey s t := ⟨h.kdim, fun i _ j _ => by rw [h.km]⟩

/-- The conditions of spec/43_register_read.md R131 look at nothing stale. -/
theorem SameObservable.readable_eq (h : SameObservable s t) (r : RegName) (row col : Nat) :
    readable r row col t = readable r row col s := by
  cases r <;> simp only [readable, h.detv, h.kiv, h.cap, h.kdim, h.mode]

/-- A register is stale only while its read is illegal (spec/43_register_read.md R131). -/
theorem SameObservable.regValue_eq (h : SameObservable s t) {r : RegName} {row col : Nat}
    (legal : readable r row col s = true) : regValue r row col t = regValue r row col s := by
  cases r with
  | sr => simp only [regValue, statusReg, h.err, h.cnt, h.kiv, h.unit, h.detv, h.mode]
  | kdim => simp only [regValue, h.kdim]
  | ldim => simp only [regValue, h.ldim]
  | cap => simp only [regValue, h.cap]
  | km => simp only [regValue, h.km]
  | sv => simp only [regValue, h.sv]
  | det =>
    have detv : s.detv = true := by simp only [readable, Bool.and_eq_true] at legal; exact legal.2
    simp only [regValue, h.det detv]
  | dinv =>
    have kiv : s.kiv = true := by simp only [readable, Bool.and_eq_true] at legal; exact legal.2
    simp only [regValue, h.dinv kiv]
  | ki =>
    obtain ⟨⟨kiv, hrow⟩, hcol⟩ : (s.kiv = true ∧ row < s.kdim) ∧ col < s.kdim := by simpa [readable] using legal
    simp only [regValue, h.ki kiv row hrow col hcol]
  | ln =>
    obtain ⟨⟨dec, hrow⟩, -⟩ : (s.mode = .dec ∧ row < s.kdim) ∧ col = 0 := by simpa [readable] using legal
    simp only [regValue, h.ln dec row hrow]

theorem SameObservable.readReg_eq (h : SameObservable s t) (reg row col : Nat) :
    readReg reg row col t = readReg reg row col s := by
  unfold readReg
  cases regName reg with
  | none => rfl
  | some r =>
    simp only [h.readable_eq]
    split
    · next legal => rw [h.regValue_eq legal]
    · rfl

theorem SameObservable.legalDim_eq (h : SameObservable s t) (k : Nat) : legalDim k t = legalDim k s := by
  simp only [legalDim, h.cap]

theorem SameObservable.legalIndex_eq (h : SameObservable s t) (n : Nat) : legalIndex n t = legalIndex n s := by
  simp only [legalIndex, h.cap]

theorem SameObservable.operandsLegal_eq (h : SameObservable s t) (i : Instr) :
    operandsLegal t i = operandsLegal s i := by
  cases i <;> simp only [operandsLegal, h.legalDim_eq, h.legalIndex_eq, h.readReg_eq]

/-- The block that goes out, once all its letters are there, has nothing stale in it. -/
theorem SameObservable.blockOut_eq (h : SameObservable s t) (session : s.mode ≠ .idle)
    (decInverse : s.mode = .dec → s.kiv = true) (full : ∀ i < s.kdim, Vec.get t.ib i = Vec.get s.ib i) :
    blockOut t = blockOut s := by
  unfold blockOut
  rw [h.mode]
  cases mode : s.mode with
  | idle => exact absurd mode session
  | enc => simpa using h.sameKey.encOut_eq (fun i _ => by rw [h.sv]) full
  | dec => simpa using decOut_congr h.kdim (h.ki (decInverse mode)) (h.ln mode) full

/-! ### The updates -/

theorem SameObservable.setCmd (h : SameObservable s t) (rest : List HostMove) :
    SameObservable { s with cmd := rest } { t with cmd := rest } := { h with cmd := rfl }

theorem SameObservable.setErr (h : SameObservable s t) (e : ErrCode) :
    SameObservable { s with err := e } { t with err := e } := { h with err := rfl }

theorem SameObservable.respond (h : SameObservable s t) (e : ErrCode) {d d' : Data} (hd : d' = d) :
    SameObservable (respond e d s) (respond e d' t) := { h with out := by simp [h.out, hd] }

theorem SameObservable.answer (h : SameObservable s t) (e : ErrCode) {d d' : Data} (hd : d' = d) :
    SameObservable (answer e d s) (answer e d' t) := (h.setErr e).respond e hd

theorem SameObservable.succeed (h : SameObservable s t) {n n' : Nat} (hn : n' = n) :
    SameObservable (succeed n s) (succeed n' t) := h.answer _ (by rw [hn])

theorem SameObservable.refuse (h : SameObservable s t) (op : BitVec 8) :
    SameObservable (refuse op s) (refuse op t) := by
  unfold Machine.refuse
  split
  · exact h.respond _ rfl
  · exact (h.setErr _).respond _ rfl

theorem SameObservable.applyReset (h : SameObservable s t) : SameObservable (applyReset s) (applyReset t) :=
  { cap := h.cap, km := rfl, sv := rfl, kdim := rfl, ldim := rfl, cnt := rfl, mode := rfl, err := rfl, detv := rfl,
    unit := rfl, kiv := rfl, cmd := h.cmd, out := h.out, det := fun _ => rfl, dinv := fun _ => rfl,
    ki := fun _ _ _ _ _ => rfl, ln := fun _ _ _ => rfl, ib := fun _ _ => rfl }

/-- A new key makes `DET`, `DINV` and `KI` stale in both states. -/
theorem SameObservable.newKey (h : SameObservable s t) (idle : s.mode = .idle) {m m' : Mat} {k k' : Nat} (hm : m' = m)
    (hk : k' = k) : SameObservable (clearKeyFlags { s with km := m, kdim := k })
      (clearKeyFlags { t with km := m', kdim := k' }) :=
  { h with
    km := hm
    kdim := hk
    detv := rfl
    unit := rfl
    kiv := rfl
    det := nofun
    dinv := nofun
    ki := nofun
    ln := fun dec => absurd (idle.symm.trans dec) nofun }

theorem SameObservable.newShift (h : SameObservable s t) {v v' : Vec} {k k' : Nat} (hv : v' = v) (hk : k' = k) :
    SameObservable { s with sv := v, ldim := k } { t with sv := v', ldim := k' } := { h with sv := hv, ldim := hk }

theorem SameObservable.computeDet (h : SameObservable s t) : SameObservable (computeDet s) (computeDet t) :=
  { h with
    det := fun _ => h.sameKey.keyDet_eq
    detv := rfl
    unit := congrArg isUnit26 h.sameKey.keyDet_eq }

/-- The inverse step leaves `KI` and `DINV` either fresh in both states or stale in both. -/
theorem SameObservable.computeInverse (h : SameObservable s t) (kdimFits : s.kdim ≤ 16) :
    SameObservable (computeInverse s) (computeInverse t) := by
  have key : keyDet t = keyDet s := h.sameKey.keyDet_eq
  cases isUnit : isUnit26 (keyDet s) with
  | false =>
    rw [computeInverse_of_not_unit s isUnit, computeInverse_of_not_unit t (key ▸ isUnit)]
    exact { h.computeDet with kiv := rfl, dinv := nofun, ki := nofun }
  | true =>
    rw [computeInverse_of_unit s isUnit, computeInverse_of_unit t (key ▸ isUnit)]
    exact
      { h.computeDet with
        kiv := rfl
        dinv := fun _ => congrArg inv26 key
        ki := fun _ i hi j hj => by
          simp only [storeInverse_kdim, computeDet_kdim] at hi hj
          have inPart : i < s.kdim ∧ j < s.kdim ∧ i < 16 ∧ j < 16 := by omega
          simp only [storeInverse_ki, computeDet_kdim, computeDet_ki, keyInverse_computeDet, Mat.get_fill, h.kdim,
            if_pos inPart, h.sameKey.keyInverse_eq hi hj] }

theorem SameObservable.openEnc (h : SameObservable s t) :
    SameObservable { s with mode := .enc, cnt := 0 } { t with mode := .enc, cnt := 0 } :=
  { h with mode := rfl, cnt := rfl, ln := nofun, ib := fun _ => nofun }

/-- With a current inverse in both states the transformed shift is fresh in both. -/
theorem SameObservable.openDec (h : SameObservable s t) (kiv : s.kiv = true) (kdimFits : s.kdim ≤ 16) :
    SameObservable { storeShift s with mode := .dec, cnt := 0 } { storeShift t with mode := .dec, cnt := 0 } :=
  { h with
    mode := rfl
    cnt := rfl
    ib := fun _ => nofun
    ln := fun _ i hi => by
      simp only [storeShift_kdim] at hi
      have inPart : 0 ≤ i ∧ i < s.kdim ∧ i < 16 := by omega
      simp only [storeShift_ln, Vec.get_fill, h.kdim, h.sv, if_pos inPart]
      exact transformedShift_congr (h.ki kiv) (fun _ _ => rfl) hi }

/-- Outside a decrypt session `LN` may differ. -/
theorem SameObservable.setIdle (h : SameObservable s t) :
    SameObservable { s with mode := .idle } { t with mode := .idle } := { h with mode := rfl, ln := nofun }

theorem SameObservable.closeSession (h : SameObservable s t) :
    SameObservable { s with mode := .idle, cnt := 0 } { t with mode := .idle, cnt := 0 } :=
  { h.setIdle with cnt := rfl, ib := fun _ => nofun }

/-- A letter taken is fresh in both states. -/
theorem SameObservable.takeLetter (h : SameObservable s t) (r : Residue) (cntFits : s.cnt < 16) :
    SameObservable (takeLetter r s) (takeLetter r t) :=
  { h with
    cnt := congrArg (· + 1) h.cnt
    ib := fun i hi => by
      simp only [takeLetter_cnt] at hi
      simp only [takeLetter_ib, h.cnt, Vec.get_set]
      split
      · rfl
      · exact h.ib i (by omega) }

/-- The padded part of a block is fresh in both states. -/
theorem SameObservable.padBlock_ib (h : SameObservable s t) (kdimFits : s.kdim ≤ 16) :
    ∀ i < s.kdim, Vec.get (padBlock t).ib i = Vec.get (padBlock s).ib i := by
  intro i hi
  simp only [Machine.padBlock_ib, h.cnt, h.kdim, Vec.get_fill]
  split
  · rfl
  · exact h.ib i (by omega)

theorem SameObservable.padBlock (h : SameObservable s t) (cntRange : s.cnt < s.kdim) (kdimFits : s.kdim ≤ 16) :
    SameObservable (padBlock s) (padBlock t) :=
  { h with ib := fun i hi => h.padBlock_ib kdimFits i (Nat.lt_trans hi cntRange) }

theorem SameObservable.flushBlock (h : SameObservable s t) (session : s.mode ≠ .idle)
    (decInverse : s.mode = .dec → s.kiv = true) (full : ∀ i < s.kdim, Vec.get t.ib i = Vec.get s.ib i) :
    SameObservable (flushBlock s) (flushBlock t) :=
  { h with
    cnt := rfl
    out := by simp only [flushBlock_out, h.out, h.blockOut_eq session decInverse full]
    ib := fun _ => nofun }

/-! ### Commands and steps -/

/-- Every command takes the same path in both states and leaves them different only in stale content. -/
theorem Effect.sameObservable {i : Instr} {s' : State} (effect : Effect s i s') (inv : Inv s)
    (h : SameObservable s t) : ∃ t', Effect t i t' ∧ SameObservable s' t' := by
  have key : keyDet t = keyDet s := h.sameKey.keyDet_eq
  have kdimFits : s.kdim ≤ 16 := inv.kdimRange.2.trans (cap_le_of_inv inv)
  have inverse : SameObservable (computeInverse s) (computeInverse t) := h.computeInverse kdimFits
  cases effect with
  | refused _ bad => exact ⟨_, .refused i (by rwa [h.mode, h.operandsLegal_eq]), h.refuse _⟩
  | setkd k idle legal =>
    exact ⟨_, .setkd k (h.mode ▸ idle) (h.legalDim_eq k ▸ legal), (h.newKey idle h.km rfl).succeed rfl⟩
  | setld k idle legal =>
    exact ⟨_, .setld k (h.mode ▸ idle) (h.legalDim_eq k ▸ legal), (h.newShift h.sv rfl).succeed rfl⟩
  | ldk row col v idle rowLegal colLegal =>
    exact ⟨_, .ldk row col v (h.mode ▸ idle) (h.legalIndex_eq row ▸ rowLegal) (h.legalIndex_eq col ▸ colLegal),
      (h.newKey idle (by rw [h.km]) h.kdim).succeed rfl⟩
  | ldl row v idle legal =>
    exact ⟨_, .ldl row v (h.mode ▸ idle) (h.legalIndex_eq row ▸ legal),
      (h.newShift (by rw [h.sv]) h.ldim).succeed rfl⟩
  | chk idle =>
    have data : detData (computeDet t) = detData (computeDet s) := by
      simp only [detData, computeDet_unit, computeDet_det, key]
    exact ⟨_, .chk (h.mode ▸ idle), h.computeDet.succeed data⟩
  | invFails idle noUnit => exact ⟨_, .invFails (h.mode ▸ idle) (key ▸ noUnit), inverse.answer _ rfl⟩
  | invStores idle isUnit => exact ⟨_, .invStores (h.mode ▸ idle) (key ▸ isUnit), inverse.succeed (by rw [key])⟩
  | encbMismatch idle dims =>
    exact ⟨_, .encbMismatch (h.mode ▸ idle) (by rwa [h.ldim, h.kdim]), h.answer _ rfl⟩
  | encbOpens idle dims =>
    exact ⟨_, .encbOpens (h.mode ▸ idle) (by rwa [h.ldim, h.kdim]), h.openEnc.succeed h.kdim⟩
  | decbFails idle noUnit => exact ⟨_, .decbFails (h.mode ▸ idle) (key ▸ noUnit), inverse.answer _ rfl⟩
  | decbMismatch idle isUnit dims =>
    exact ⟨_, .decbMismatch (h.mode ▸ idle) (key ▸ isUnit) (by rwa [h.ldim, h.kdim]), inverse.answer _ rfl⟩
  | decbOpens idle isUnit dims =>
    exact ⟨_, .decbOpens (h.mode ▸ idle) (key ▸ isUnit) (by rwa [h.ldim, h.kdim]),
      (inverse.openDec (by simpa using isUnit) (by simpa using kdimFits)).succeed h.kdim⟩
  | putBad c session noLetter => exact ⟨_, .putBad c (h.mode ▸ session) noLetter, h.closeSession.answer _ rfl⟩
  | putFlushes c r session letter full =>
    have taken := h.takeLetter r (inv.cntRange.trans_le kdimFits)
    exact ⟨_, .putFlushes c r (h.mode ▸ session) letter (by rwa [h.cnt, h.kdim]),
      (taken.flushBlock session inv.decInverse fun i hi => taken.ib i (hi.trans_eq full.symm)).succeed h.kdim⟩
  | putTakes c r session letter notFull =>
    exact ⟨_, .putTakes c r (h.mode ▸ session) letter (by rwa [h.cnt, h.kdim]),
      (h.takeLetter r (inv.cntRange.trans_le kdimFits)).succeed rfl⟩
  | endFlushes enc partBlock =>
    have session : s.mode ≠ .idle := by simp [enc]
    have padded := h.padBlock inv.cntRange kdimFits
    exact ⟨_, .endFlushes (h.mode ▸ enc) (h.cnt ▸ partBlock),
      (padded.flushBlock session inv.decInverse (h.padBlock_ib kdimFits)).setIdle.succeed h.kdim⟩
  | endMismatch dec partBlock =>
    exact ⟨_, .endMismatch (h.mode ▸ dec) (h.cnt ▸ partBlock), h.closeSession.answer _ rfl⟩
  | endCloses session empty =>
    exact ⟨_, .endCloses (h.mode ▸ session) (h.cnt ▸ empty), h.setIdle.succeed rfl⟩
  | rd reg row col v legal => exact ⟨_, .rd reg row col v (h.readReg_eq reg row col ▸ legal), h.respond _ rfl⟩

theorem StepEffect.sameObservable {s' : State} (effect : StepEffect s s') (inv : Inv s) (h : SameObservable s t) :
    ∃ t', StepEffect t t' ∧ SameObservable s' t' := by
  cases effect with
  | held empty => exact ⟨t, .held (h.cmd ▸ empty), h⟩
  | reset rest move => exact ⟨_, .reset rest (h.cmd ▸ move), (h.setCmd rest).applyReset⟩
  | ran w rest i _ move decoded ran =>
    obtain ⟨t', ran', same⟩ := ran.sameObservable (inv_of_streams inv _ _ _) (h.setCmd rest)
    exact ⟨t', .ran w rest i t' (h.cmd ▸ move) decoded ran', same⟩
  | refusedWord w rest move undecodable =>
    exact ⟨_, .refusedWord w rest (h.cmd ▸ move) undecodable, (h.setCmd rest).refuse _⟩

end

/-- Settles O39: by `StepEffect.sameObservable`; what was sent is among what the states agree on. -/
theorem staleContentUnobservable : Obligations.StaleContentUnobservable := by
  intro s t s' inv _ same next
  obtain ⟨t', effect, same'⟩ := (step_eq_next_iff.mp next).sameObservable inv same
  exact ⟨t', effect.step_eq, same', same'.out⟩

end Sys2Proof.Machine
end

section
/-! PROOF. The response of a command and the code it leaves in `ERR` (spec/10_state.md R20, R30). -/

namespace Sys2Proof.Machine

section
variable {s t u : State} {i : Instr}

/-! ### The response -/

/-- From `s` to `t` no symbols or one block of them went out, then one response with the code `e`, and the queue is as
it was. -/
def Sends (s t : State) (e : ErrCode) : Prop :=
  t.cmd = s.cmd ∧ ∃ (syms : List SymCode) (d : Data),
    t.out = s.out ++ (syms.map .symbol ++ [.response (responseWord e d)]) ∧ (syms = [] ∨ syms.length = s.kdim)

theorem sends_answer (cmd : u.cmd = s.cmd) (out : u.out = s.out) (e : ErrCode) (d : Data) :
    Sends s (answer e d u) e := ⟨cmd, [], d, by simp [out], .inl rfl⟩

theorem sends_refuse (op : BitVec 8) (s : State) : Sends s (refuse op s) .illegalCommand :=
  ⟨refuse_cmd op s, [], 0, refuse_out op s, .inl rfl⟩

/-- The block of `u` goes out, then the answer. -/
theorem sends_flushBlock (cmd : t.cmd = s.cmd) {d : Data}
    (out : t.out = (flushBlock u).out ++ [.response (responseWord t.err d)]) (before : u.out = s.out)
    (kdim : u.kdim = s.kdim) : Sends s t t.err :=
  ⟨cmd, (blockOut u).map toSymbol, d, by simp [out, before], .inr (by simp [kdim])⟩

/-- Every command answers once; all but `RD` leave the code of the response in `ERR`. -/
theorem Effect.sends (effect : Effect s i t) :
    ∃ e, Sends s t e ∧ ((∀ reg row col, i ≠ .rd reg row col) → t.err = e) := by
  cases effect with
  | refused _ bad =>
    refine ⟨_, sends_refuse _ s, fun notRd => ?_⟩
    cases i with
    | rd reg row col => exact absurd rfl (notRd reg row col)
    | _ => rfl
  | putFlushes c r session letter full =>
    exact ⟨_, sends_flushBlock (u := takeLetter r s) rfl rfl rfl rfl, fun _ => rfl⟩
  | endFlushes enc partBlock => exact ⟨_, sends_flushBlock (u := padBlock s) rfl rfl rfl rfl, fun _ => rfl⟩
  | rd reg row col v legal =>
    exact ⟨.success, ⟨rfl, [], v, rfl, .inl rfl⟩, fun notRd => absurd rfl (notRd reg row col)⟩
  | _ => exact ⟨_, sends_answer (by simp) (by simp) _ _, fun _ => rfl⟩

/-! ### `ERR` -/

theorem Effect.err_of_rd {reg row col : Nat} (effect : Effect s (.rd reg row col) t) : t.err = s.err := by
  cases effect with
  | refused _ _ => rfl
  | rd _ _ _ _ _ => rfl

theorem computeInverse_setErr (s : State) (e : ErrCode) :
    computeInverse { s with err := e } = { computeInverse s with err := e } := by
  cases isUnit : isUnit26 (keyDet s) with
  | false =>
    rw [computeInverse_of_not_unit s isUnit, computeInverse_of_not_unit { s with err := e } isUnit]
    rfl
  | true =>
    rw [computeInverse_of_unit s isUnit, computeInverse_of_unit { s with err := e } isUnit]
    rfl

/-- Only `SR` shows `ERR`. -/
theorem regName_eq_sr {reg : Nat} (h : regName reg = some .sr) : reg = 0 := by
  unfold regName at h
  split at h
  · rfl
  all_goals cases h

theorem readReg_setErr {reg : Nat} (notSr : reg ≠ 0) (row col : Nat) (s : State) (e : ErrCode) :
    readReg reg row col { s with err := e } = readReg reg row col s := by
  unfold readReg
  cases name : regName reg with
  | none => rfl
  | some r =>
    cases r with
    | sr => exact absurd (regName_eq_sr name) notSr
    | _ => rfl

theorem operandsLegal_setErr (notSr : ∀ row col, i ≠ .rd 0 row col) (s : State) (e : ErrCode) :
    operandsLegal { s with err := e } i = operandsLegal s i := by
  cases i with
  | rd reg row col =>
    have notZero : reg ≠ 0 := fun h => notSr row col (by rw [h])
    exact congrArg Option.isSome (readReg_setErr notZero row col s e)
  | _ => rfl

theorem refuse_setErr (op : BitVec 8) (s : State) (e : ErrCode) :
    { refuse op { s with err := e } with err := (refuse op s).err } = refuse op s := by
  unfold refuse
  split <;> rfl

/-- No command but `RD` of `SR` reads `ERR`: with another value there it takes the same path. -/
theorem Effect.setErr (effect : Effect s i t) (notSr : ∀ row col, i ≠ .rd 0 row col) (e : ErrCode) :
    ∃ t', Effect { s with err := e } i t' ∧ { t' with err := t.err } = t := by
  have inverse := computeInverse_setErr s e
  cases effect with
  | refused _ bad => exact ⟨_, .refused i (by rwa [operandsLegal_setErr notSr]), refuse_setErr _ s e⟩
  | setkd k idle legal => exact ⟨_, .setkd k idle legal, rfl⟩
  | setld k idle legal => exact ⟨_, .setld k idle legal, rfl⟩
  | ldk row col v idle rowLegal colLegal => exact ⟨_, .ldk row col v idle rowLegal colLegal, rfl⟩
  | ldl row v idle legal => exact ⟨_, .ldl row v idle legal, rfl⟩
  | chk idle => exact ⟨_, .chk idle, rfl⟩
  | invFails idle noUnit => exact ⟨_, .invFails idle noUnit, by rw [inverse]; rfl⟩
  | invStores idle isUnit => exact ⟨_, .invStores idle isUnit, by rw [inverse]; rfl⟩
  | encbMismatch idle dims => exact ⟨_, .encbMismatch idle dims, rfl⟩
  | encbOpens idle dims => exact ⟨_, .encbOpens idle dims, rfl⟩
  | decbFails idle noUnit => exact ⟨_, .decbFails idle noUnit, by rw [inverse]; rfl⟩
  | decbMismatch idle isUnit dims => exact ⟨_, .decbMismatch idle isUnit dims, by rw [inverse]; rfl⟩
  | decbOpens idle isUnit dims => exact ⟨_, .decbOpens idle isUnit dims, by rw [inverse]; rfl⟩
  | putBad c session noLetter => exact ⟨_, .putBad c session noLetter, rfl⟩
  | putFlushes c r session letter full => exact ⟨_, .putFlushes c r session letter full, rfl⟩
  | putTakes c r session letter notFull => exact ⟨_, .putTakes c r session letter notFull, rfl⟩
  | endFlushes enc partBlock => exact ⟨_, .endFlushes enc partBlock, rfl⟩
  | endMismatch dec partBlock => exact ⟨_, .endMismatch dec partBlock, rfl⟩
  | endCloses session empty => exact ⟨_, .endCloses session empty, rfl⟩
  | rd reg row col v legal =>
    have notZero : reg ≠ 0 := fun h => notSr row col (by rw [h])
    exact ⟨_, .rd reg row col v (by rwa [readReg_setErr notZero]), rfl⟩

end

/-- Settles O10: `Effect.sends` for a word that decodes, the refusal for one that does not. -/
theorem eachWordGetsOneResponse : Obligations.EachWordGetsOneResponse := by
  intro s w rest move
  have answered : ∃ t e, step s = .next t ∧ Sends { s with cmd := rest } t e := by
    cases hd : decode w with
    | ok i =>
      obtain ⟨t, effect⟩ := exists_effect { s with cmd := rest } i
      obtain ⟨e, sent, -⟩ := effect.sends
      exact ⟨t, e, by rw [step_of_decode move hd, effect.exec_eq], sent⟩
    | error r => exact ⟨_, _, step_of_undecodable move (by simp [hd]), sends_refuse _ _⟩
  obtain ⟨t, e, next, cmd, syms, d, out, length⟩ := answered
  exact ⟨t, syms, responseWord e d, next, cmd, out, length⟩

/-- Settles O34: `Effect.sends` for the code in `ERR`, `Effect.err_of_rd` for `RD`, `Effect.setErr` for the rest. -/
theorem errHoldsTheLastCode : Obligations.ErrHoldsTheLastCode := by
  intro i s
  obtain ⟨t, effect⟩ := exists_effect s i
  refine ⟨t, effect.exec_eq, ?_, fun notRd => ?_, fun notSr e => ?_⟩
  · rintro ⟨reg, row, col, rfl⟩
    exact effect.err_of_rd
  · obtain ⟨e, ⟨-, syms, d, out, -⟩, err⟩ := effect.sends
    exact ⟨s.out ++ syms.map .symbol, d, by rw [out, err notRd, List.append_assoc]; rfl⟩
  · obtain ⟨t', effect', same⟩ := effect.setErr notSr e
    exact ⟨t', effect'.exec_eq, same⟩

end Sys2Proof.Machine
end

section
/-! PROOF. The flags, `SR` and `CAP` (spec/10_state.md R23, R24, R32). -/

namespace Sys2Proof.Machine

section
variable {s t : State} {i : Instr}

/-! ### The flags -/

/-- `DETV`, `UNIT` and `KIV` are in `t` as in `s`. -/
def SameFlags (s t : State) : Prop := t.detv = s.detv ∧ t.unit = s.unit ∧ t.kiv = s.kiv

theorem sameFlags_refuse (op : BitVec 8) (s : State) : SameFlags s (refuse op s) :=
  ⟨refuse_detv op s, refuse_unit op s, refuse_kiv op s⟩

/-- A command that is not accepted or has an illegal operand has the refusal as its only outcome. -/
theorem Effect.eq_refuse (effect : Effect s i t) (bad : acceptedIn s.mode i = false ∨ operandsLegal s i = false) :
    t = refuse i.opcode s := by
  have next := effect.exec_eq
  rw [exec_refused bad] at next
  cases next
  rfl

/-- `CHK`, `INV` and `DECB` compute the determinant, whatever they answer (spec/41_modular_matrix.md R87). -/
theorem Effect.det_flags (effect : Effect s i t) (idle : s.mode = .idle) (hi : i = .chk ∨ i = .inv ∨ i = .decb) :
    t.detv = true ∧ t.unit = isUnit26 (keyDet s) := by
  cases effect with
  | refused _ bad => obtain rfl | rfl | rfl := hi <;> simp [acceptedIn, operandsLegal, idle] at bad
  | chk | invFails | invStores | decbFails | decbMismatch | decbOpens => simp
  | _ => simp at hi

/-- `INV` and `DECB` compute the inverse, whatever they answer (spec/41_modular_matrix.md R86). -/
theorem Effect.kiv_flag (effect : Effect s i t) (idle : s.mode = .idle) (hi : i = .inv ∨ i = .decb) :
    t.kiv = isUnit26 (keyDet s) := by
  cases effect with
  | refused _ bad => obtain rfl | rfl := hi <;> simp [acceptedIn, operandsLegal, idle] at bad
  | invFails | invStores | decbFails | decbMismatch | decbOpens => simp
  | _ => simp at hi

theorem Effect.kiv_of_chk (effect : Effect s .chk t) : t.kiv = s.kiv := by
  cases effect with
  | refused _ _ => exact refuse_kiv _ s
  | chk _ => rfl

/-- An accepted `SETKD` or `LDK` clears the three flags (spec/40_key_load.md R70, R72). -/
theorem Effect.flags_of_newKey (effect : Effect s i t) (acc : acceptedIn s.mode i = true)
    (legal : operandsLegal s i = true) (hi : (∃ k, i = .setkd k) ∨ ∃ a b v, i = .ldk a b v) :
    t.detv = false ∧ t.unit = false ∧ t.kiv = false := by
  cases effect with
  | refused _ bad => simp [acc, legal] at bad
  | setkd | ldk => exact ⟨rfl, rfl, rfl⟩
  | _ => simp at hi

/-- The commands that change none of the three flags (spec/10_state.md R32). -/
theorem Effect.sameFlags (effect : Effect s i t) (hi : (∃ k, i = .setld k) ∨ (∃ a v, i = .ldl a v) ∨ i = .encb ∨
    (∃ c, i = .put c) ∨ i = .endText ∨ ∃ g a b, i = .rd g a b) : SameFlags s t := by
  cases effect with
  | refused _ _ => exact sameFlags_refuse _ s
  | setkd | ldk | chk | invFails | invStores | decbFails | decbMismatch | decbOpens => simp at hi
  | _ => exact ⟨rfl, rfl, rfl⟩

/-! ### `CAP` -/

theorem Effect.cap_eq (effect : Effect s i t) : t.cap = s.cap := by
  cases effect with
  | refused _ _ => exact refuse_cap _ s
  | invFails | invStores | decbFails | decbMismatch | decbOpens => exact computeInverse_cap s
  | _ => rfl

theorem StepEffect.cap_eq (effect : StepEffect s t) : t.cap = s.cap := by
  cases effect with
  | held _ => rfl
  | reset _ _ => rfl
  | ran _ _ _ _ _ _ ran => exact ran.cap_eq
  | refusedWord w rest _ _ => exact refuse_cap _ { s with cmd := rest }

/-! ### `SR` -/

/-- `SR` as a number (spec/10_state.md R23). -/
theorem toNat_statusReg (cntFits : s.cnt < 16) : (statusReg s).toNat = s.mode.bits.toNat + 4 * s.detv.toNat +
    8 * s.unit.toNat + 16 * s.kiv.toNat + 256 * s.cnt + 4096 * s.err.bits.toNat := by
  have cnt : (BitVec.ofNat 4 s.cnt).toNat = s.cnt := Nat.mod_eq_of_lt cntFits
  have low : (BitVec.ofBool s.kiv ++ (BitVec.ofBool s.unit ++ (BitVec.ofBool s.detv ++ s.mode.bits))).toNat =
      s.mode.bits.toNat + 4 * s.detv.toNat + 8 * s.unit.toNat + 16 * s.kiv.toNat := by
    simp only [toNat_concat, BitVec.toNat_ofBool]
    omega
  have all : (statusReg s).toNat = s.err.bits.toNat * 2 ^ 12 + ((BitVec.ofNat 4 s.cnt).toNat * 2 ^ 8 +
      ((0 : BitVec 3).toNat * 2 ^ 5 +
        (BitVec.ofBool s.kiv ++ (BitVec.ofBool s.unit ++ (BitVec.ofBool s.detv ++ s.mode.bits))).toNat)) := by
    unfold statusReg
    rw [← toNat_concat, ← toNat_concat, ← toNat_concat]
  rw [all, low, cnt]
  simp
  omega

/-- A bit of a word, from its value. -/
theorem getLsbD_eq_of_toNat {n k : Nat} {x : BitVec n} {b : Bool} (h : x.toNat / 2 ^ k % 2 = b.toNat) :
    x.getLsbD k = b := by
  rw [BitVec.getLsbD, Nat.testBit_eq_decide_div_mod_eq, h]
  cases b <;> rfl

/-- A field of a word of any width as a number. -/
theorem toNat_extractLsb' {n : Nat} (x : BitVec n) (k m : Nat) : (x.extractLsb' k m).toNat = x.toNat / 2 ^ k % 2 ^ m := by
  rw [BitVec.extractLsb'_toNat, Nat.shiftRight_eq_div_pow]

end

/-- Settles O25: every field is read off the value of `SR`. -/
theorem statusRegisterFields : Obligations.StatusRegisterFields := by
  intro s cntFits
  have value := toNat_statusReg cntFits
  have mode : s.mode.bits.toNat < 4 := s.mode.bits.isLt
  have err : s.err.bits.toNat < 16 := s.err.bits.isLt
  have detv := s.detv.toNat_lt
  have unit := s.unit.toNat_lt
  have kiv := s.kiv.toNat_lt
  refine ⟨BitVec.eq_of_toNat_eq ?_, getLsbD_eq_of_toNat ?_, getLsbD_eq_of_toNat ?_, getLsbD_eq_of_toNat ?_,
    BitVec.eq_of_toNat_eq ?_, ?_, BitVec.eq_of_toNat_eq ?_, value⟩
  all_goals
    simp only [toNat_extractLsb', value, BitVec.ofNat_eq_ofNat, BitVec.toNat_ofNat]
    omega

/-- Settles O30: no step writes `CAP`, and register 5 is always readable. -/
theorem capIsConstant : Obligations.CapIsConstant := by
  intro s
  refine ⟨fun t next => (step_eq_next_iff.mp next).cap_eq, fun hcap => ?_⟩
  rw [← responseWord_success s.cap (by omega)]
  exact (Effect.rd 5 0 0 (BitVec.ofNat 16 s.cap) rfl).exec_eq

/-- Settles O33: one lemma of this section for each clause. -/
theorem statusFlagRules : Obligations.StatusFlagRules := by
  refine ⟨fun s i => ?_, fun s w rest move undecodable => ?_, fun s rest move => ?_⟩
  · obtain ⟨t, effect⟩ := exists_effect s i
    have unitIff : isUnit26 (keyDet s) = true ↔ Nat.gcd (mod26 (det s.kdim (keyMatrix s))).val 26 = 1 :=
      isUnit26_iff _
    refine ⟨t, effect.exec_eq, fun idle hi => ?_, fun idle hi => ?_, ?_, fun idle hi => ?_, effect.sameFlags,
      fun bad => ?_⟩
    · obtain ⟨detv, unit⟩ := effect.det_flags idle hi
      exact ⟨detv, by rw [unit, unitIff]⟩
    · rw [effect.kiv_flag idle hi, unitIff]
    · rintro rfl
      exact effect.kiv_of_chk
    · obtain ⟨k, rfl, hk⟩ | ⟨a, b, v, rfl, ha, hb⟩ := hi
      · exact effect.flags_of_newKey (by simp [acceptedIn, idle]) ((legalDim_iff k s).mpr hk) (.inl ⟨k, rfl⟩)
      · exact effect.flags_of_newKey (by simp [acceptedIn, idle]) (by simp [operandsLegal, legalIndex_iff, ha, hb])
          (.inr ⟨a, b, v, rfl⟩)
    · rw [effect.eq_refuse bad]
      exact sameFlags_refuse _ s
  · exact ⟨_, step_of_undecodable move undecodable, sameFlags_refuse _ { s with cmd := rest }⟩
  · exact ⟨_, step_of_rst move, rfl, rfl, rfl⟩

end Sys2Proof.Machine
end

section
/-! PROOF. The cells a unit with a smaller `KMAX` does not have hold 0 (the model's own, log 6): no write of a command
goes beyond `KMAX`. -/

namespace Sys2Proof.Machine

/-! ### Register files -/

/-- A vector file is 0 from element `n` on. -/
def Vec.ZeroFrom (n : Nat) (v : Vec) : Prop := ∀ i, n ≤ i → Vec.get v i = 0

/-- A matrix file is 0 outside its `n` by `n` part. -/
def Mat.ZeroFrom (n : Nat) (m : Mat) : Prop := ∀ i j, n ≤ i ∨ n ≤ j → Mat.get m i j = 0

theorem Vec.ZeroFrom.set {n : Nat} {v : Vec} (h : Vec.ZeroFrom n v) {i : Nat} (hi : i < n) (r : Residue) :
    Vec.ZeroFrom n (Vec.set v i r) := by
  intro j hj
  rw [Vec.get_set, if_neg (by omega), h j hj]

theorem Vec.ZeroFrom.fill {n : Nat} {v : Vec} (h : Vec.ZeroFrom n v) (lo : Nat) {hi : Nat} (hhi : hi ≤ n)
    (f : Nat → Residue) : Vec.ZeroFrom n (Vec.fill v lo hi f) := by
  intro j hj
  rw [Vec.get_fill, if_neg (by omega), h j hj]

theorem Mat.ZeroFrom.set {n : Nat} {m : Mat} (h : Mat.ZeroFrom n m) {i j : Nat} (hi : i < n) (hj : j < n)
    (r : Residue) : Mat.ZeroFrom n (Mat.set m i j r) := by
  intro a b hab
  rw [Mat.get_set, if_neg (by omega), h a b hab]

theorem Mat.ZeroFrom.fill {n : Nat} {m : Mat} (h : Mat.ZeroFrom n m) {k : Nat} (hk : k ≤ n)
    (f : Nat → Nat → Residue) : Mat.ZeroFrom n (Mat.fill m k f) := by
  intro a b hab
  rw [Mat.get_fill, if_neg (by omega), h a b hab]

/-! ### States -/

/-- `CellsBeyondCap` file by file. -/
structure FilesZeroBeyondCap (s : State) : Prop where
  km : Mat.ZeroFrom s.cap s.km
  ki : Mat.ZeroFrom s.cap s.ki
  sv : Vec.ZeroFrom s.cap s.sv
  ln : Vec.ZeroFrom s.cap s.ln
  ib : Vec.ZeroFrom s.cap s.ib

/-- A read outside the sixteen cells gives 0 as well. -/
theorem vecZeroFrom_of_cells {n : Nat} {v : Vec} (h : ∀ i < 16, n ≤ i → Vec.get v i = 0) : Vec.ZeroFrom n v := by
  intro i hi
  obtain inFile | outside := Nat.lt_or_ge i 16
  · exact h i inFile hi
  · exact Vec.get_of_le v i outside

theorem matZeroFrom_of_cells {n : Nat} {m : Mat} (h : ∀ i < 16, ∀ j < 16, n ≤ i ∨ n ≤ j → Mat.get m i j = 0) :
    Mat.ZeroFrom n m := by
  intro i j hij
  obtain rowInFile | outside := Nat.lt_or_ge i 16
  · obtain colInFile | outside := Nat.lt_or_ge j 16
    · exact h i rowInFile j colInFile hij
    · exact Mat.get_of_col_le m i j outside
  · exact Mat.get_of_row_le m i j outside

theorem cellsBeyondCap_iff {s : State} : CellsBeyondCap s ↔ FilesZeroBeyondCap s where
  mp h :=
    { km := matZeroFrom_of_cells fun i hi j hj beyond => (h.mat i hi j hj beyond).1
      ki := matZeroFrom_of_cells fun i hi j hj beyond => (h.mat i hi j hj beyond).2
      sv := vecZeroFrom_of_cells fun i hi beyond => (h.vec i hi beyond).1
      ln := vecZeroFrom_of_cells fun i hi beyond => (h.vec i hi beyond).2.1
      ib := vecZeroFrom_of_cells fun i hi beyond => (h.vec i hi beyond).2.2 }
  mpr h :=
    { mat := fun i _ j _ beyond => ⟨h.km i j beyond, h.ki i j beyond⟩
      vec := fun i _ beyond => ⟨h.sv i beyond, h.ln i beyond, h.ib i beyond⟩ }

theorem filesZeroBeyondCap_resetFor (kmax : Nat) : FilesZeroBeyondCap (State.resetFor kmax) where
  km i j _ := Mat.get_zeroMat i j
  ki i j _ := Mat.get_zeroMat i j
  sv i _ := Vec.get_zeroVec i
  ln i _ := Vec.get_zeroVec i
  ib i _ := Vec.get_zeroVec i

section
variable {s t : State}

theorem FilesZeroBeyondCap.refuse (h : FilesZeroBeyondCap s) (op : BitVec 8) : FilesZeroBeyondCap (refuse op s) := by
  unfold Machine.refuse
  split <;> exact { h with }

theorem FilesZeroBeyondCap.computeInverse (h : FilesZeroBeyondCap s) (kdim : s.kdim ≤ s.cap) :
    FilesZeroBeyondCap (computeInverse s) := by
  cases isUnit : isUnit26 (keyDet s) with
  | false =>
    rw [computeInverse_of_not_unit s isUnit]
    exact { h with }
  | true =>
    rw [computeInverse_of_unit s isUnit]
    exact { h with ki := h.ki.fill kdim _ }

/-- Every command writes below `KMAX` only. -/
theorem Effect.filesZeroBeyondCap {i : Instr} (effect : Effect s i t) (inv : Inv s) (h : FilesZeroBeyondCap s) :
    FilesZeroBeyondCap t := by
  have kdim : s.kdim ≤ s.cap := inv.kdimRange.2
  have inverse : FilesZeroBeyondCap (computeInverse s) := h.computeInverse kdim
  have taken (r : Residue) : Vec.ZeroFrom s.cap (Vec.set s.ib s.cnt r) := h.ib.set (inv.cntRange.trans_le kdim) r
  cases effect with
  | refused _ _ => exact h.refuse _
  | ldk row col v _ rowLegal colLegal =>
    exact { h with km := h.km.set ((legalIndex_iff row s).mp rowLegal) ((legalIndex_iff col s).mp colLegal) _ }
  | ldl row v _ legal => exact { h with sv := h.sv.set ((legalIndex_iff row s).mp legal) _ }
  | invFails | invStores | decbFails | decbMismatch => exact { inverse with }
  | decbOpens => exact { inverse with ln := inverse.ln.fill 0 (by simpa using kdim) _ }
  | putFlushes c r _ _ _ => exact { h with ib := taken r }
  | putTakes c r _ _ _ => exact { h with ib := taken r }
  | endFlushes _ _ => exact { h with ib := h.ib.fill s.cnt kdim _ }
  | _ => exact { h with }

theorem StepEffect.filesZeroBeyondCap (effect : StepEffect s t) (inv : Inv s) (h : FilesZeroBeyondCap s) :
    FilesZeroBeyondCap t := by
  cases effect with
  | held _ => exact h
  | reset rest _ => exact { filesZeroBeyondCap_resetFor s.cap with }
  | ran w rest i _ _ _ ran => exact ran.filesZeroBeyondCap (inv_of_streams inv _ _ _) { h with }
  | refusedWord w rest _ _ => exact FilesZeroBeyondCap.refuse (s := { s with cmd := rest }) { h with } _

end

/-- Settles O38: at reset every cell holds 0, and every kind of step writes below `KMAX` only. -/
theorem cellsBeyondCapStayZero : Obligations.CellsBeyondCapStayZero := by
  refine ⟨fun kmax => cellsBeyondCap_iff.mpr (filesZeroBeyondCap_resetFor kmax), fun s t inv cells next => ?_⟩
  exact cellsBeyondCap_iff.mpr ((step_eq_next_iff.mp next).filesZeroBeyondCap inv (cellsBeyondCap_iff.mp cells))

end Sys2Proof.Machine
end

section
/-! PROOF. The word of a well-formed command decodes to it: its operands pass through the fields unchanged
(spec/30_encoding.md R50 to R53). -/

namespace Sys2Proof

/-- A signed operand is read back from its immediate (spec/00_scope.md R4). -/
theorem sext16_ofInt {v : Int} (h : fitsSigned v = true) : sext16 (BitVec.ofInt 16 v) = v := by
  obtain ⟨low, high⟩ : -32768 ≤ v ∧ v ≤ 32767 := by simpa [fitsSigned] using h
  have value : ((BitVec.ofInt 16 v).toNat : Int) = v % 65536 := by rw [BitVec.toNat_ofInt]; omega
  unfold sext16
  split <;> omega

theorem toNat_ofNat_of_fitsUnsigned {n : Nat} (h : fitsUnsigned n = true) : (BitVec.ofNat 16 n).toNat = n :=
  Nat.mod_eq_of_lt (of_decide_eq_true h)

theorem toNat_ofNat_of_fitsIndex {n : Nat} (h : fitsIndex n = true) : (BitVec.ofNat 4 n).toNat = n :=
  Nat.mod_eq_of_lt (of_decide_eq_true h)

/-- Every operand of a well-formed command is the number its field holds. -/
theorem decode_encode {i : Instr} (wf : i.wf = true) : decode (encode i) = .ok i := by
  rw [encode, decode_assembleFields]
  cases i with
  | setkd k | setld k | put k => simp [Instr.toFields, toNat_ofNat_of_fitsUnsigned wf, -BitVec.toNat_ofNat]
  | ldk row col v =>
    obtain ⟨⟨hrow, hcol⟩, hv⟩ : (fitsIndex row = true ∧ fitsIndex col = true) ∧ fitsSigned v = true := by
      simpa [Instr.wf] using wf
    simp [Instr.toFields, toNat_ofNat_of_fitsIndex hrow, toNat_ofNat_of_fitsIndex hcol, sext16_ofInt hv,
      -BitVec.toNat_ofNat]
  | ldl row v =>
    obtain ⟨hrow, hv⟩ : fitsIndex row = true ∧ fitsSigned v = true := by simpa [Instr.wf] using wf
    simp [Instr.toFields, toNat_ofNat_of_fitsIndex hrow, sext16_ofInt hv, -BitVec.toNat_ofNat]
  | rd reg row col =>
    obtain ⟨⟨hreg, hrow⟩, hcol⟩ : (fitsUnsigned reg = true ∧ fitsIndex row = true) ∧ fitsIndex col = true := by
      simpa [Instr.wf] using wf
    simp [Instr.toFields, toNat_ofNat_of_fitsUnsigned hreg, toNat_ofNat_of_fitsIndex hrow,
      toNat_ofNat_of_fitsIndex hcol, -BitVec.toNat_ofNat]
  | chk | inv | encb | decb | endText => rfl

end Sys2Proof
end

section
/-! PROOF. The statements about spec/20_memory.md: the step function (R43), and a key load sent twice (R42). -/

namespace Sys2Proof.Machine

/-! ### The step function -/

/-- Settles O7: `step_of_decode`, for the word of a well-formed command by `decode_encode`. -/
theorem stepRunsTheDecodedCommand : Obligations.StepRunsTheDecodedCommand := by
  intro s w rest i move
  refine ⟨step_of_decode move, ?_⟩
  rintro wf rfl
  exact step_of_decode move (decode_encode wf)

/-- Settles O9: one of the four kinds of step applies in every state; with nothing sent it is the first. -/
theorem everyStepAnswers : Obligations.EveryStepAnswers := by
  refine ⟨fun s => ?_, fun _ => step_of_nil⟩
  obtain ⟨t, effect⟩ := exists_stepEffect s
  exact ⟨t, effect.step_eq⟩

/-! ### A key load sent twice -/

/-- The second of two equal writes of an element changes nothing. -/
theorem Vec.set_set (v : Vec) (i : Nat) (r : Residue) : Vec.set (Vec.set v i r) i r = Vec.set v i r :=
  Vector.setIfInBounds_setIfInBounds r

theorem Mat.set_set (m : Mat) (i j : Nat) (r : Residue) : Mat.set (Mat.set m i j r) i j r = Mat.set m i j r := by
  apply Mat.ext
  intro a _ b _
  rw [Mat.get_set (Mat.set m i j r)]
  split
  · next written => rw [Mat.get_set, if_pos written]
  · rfl

theorem acceptedIn_idle_of_isKeyLoad {i : Instr} (load : isKeyLoad i = true) : acceptedIn .idle i = true := by
  cases i with
  | setkd | setld | ldk | ldl => rfl
  | _ => simp [isKeyLoad] at load

/-- The state an accepted key load leaves accepts it again, and then only the response is added: the flags it clears
are clear, and the element or dimension it writes has that value already. -/
theorem Effect.again_of_isKeyLoad {i : Instr} {s t : State} (effect : Effect s i t) (load : isKeyLoad i = true)
    (acc : acceptedIn s.mode i = true) (legal : operandsLegal s i = true) :
    ∃ r, Effect t i { t with out := t.out ++ [.response r] } ∧ t.out = s.out ++ [.response r] := by
  cases effect with
  | refused _ bad => simp [acc, legal] at bad
  | setkd k idle legal => exact ⟨_, .setkd k idle legal, rfl⟩
  | setld k idle legal => exact ⟨_, .setld k idle legal, rfl⟩
  | ldk row col v idle rowLegal colLegal =>
    refine ⟨_, .of_eq (.ldk row col v idle rowLegal colLegal) ?_, rfl⟩
    rw [succeed_km, clearKeyFlags_km, Mat.set_set]
    rfl
  | ldl row v idle legal =>
    refine ⟨_, .of_eq (.ldl row v idle legal) ?_, rfl⟩
    rw [succeed_sv, Vec.set_set]
    rfl
  | _ => simp [isKeyLoad] at load

/-- Settles O40: `Effect.again_of_isKeyLoad` for the second execution. -/
theorem keyLoadIsIdempotent : Obligations.KeyLoadIsIdempotent := by
  intro i s load idle legal
  have acc : acceptedIn s.mode i = true := idle ▸ acceptedIn_idle_of_isKeyLoad load
  obtain ⟨t, effect⟩ := exists_effect_of_accepted acc legal
  obtain ⟨r, again, out⟩ := effect.again_of_isKeyLoad load acc legal
  exact ⟨t, r, effect.exec_eq, again.exec_eq, out⟩

end Sys2Proof.Machine
end

section
/-! PROOF. The statements about the command words of spec/30_encoding.md: rows and words (R51, R52), the two round
trips (R50 to R53), rejection by name (R55), the sums of R58. -/

namespace Sys2Proof

/-! ### Rows and words -/

/-- The mask of every row covers the opcode, and the match bits carry it (spec/30_encoding.md R52). -/
theorem opField_mask_and_match : ∀ r ∈ opcodeTable, opField r.mask = 0xFF ∧ opField r.matchBits = r.op := by decide

theorem accepts_iff {r : OpcodeRow} {w : CmdWord} : r.accepts w = true ↔ w &&& r.mask = r.matchBits := beq_iff_eq

/-- A row accepts words of its own opcode only. -/
theorem opField_of_accepts {r : OpcodeRow} {w : CmdWord} (mem : r ∈ opcodeTable) (acc : r.accepts w = true) :
    opField w = r.op := by
  obtain ⟨mask, matchBits⟩ := opField_mask_and_match r mem
  calc opField w = opField w &&& 0xFF := (and_ff _).symm
    _ = opField w &&& opField r.mask := by rw [mask]
    _ = opField (w &&& r.mask) := BitVec.extractLsb'_and.symm
    _ = r.op := by rw [accepts_iff.mp acc, matchBits]

/-- At most one row accepts a word: the opcodes of the rows are distinct (spec/30_encoding.md R51). -/
theorem eq_of_accepts {r q : OpcodeRow} {w : CmdWord} (hr : r ∈ opcodeTable) (hq : q ∈ opcodeTable)
    (accr : r.accepts w = true) (accq : q.accepts w = true) : r = q := by
  have distinct : (opcodeTable.map OpcodeRow.op).Nodup := by decide
  exact List.inj_on_of_nodup_map distinct hr hq ((opField_of_accepts hr accr).symm.trans (opField_of_accepts hq accq))

theorem find?_opcodeTable_some {r : OpcodeRow} {w : CmdWord}
    (found : opcodeTable.find? (fun r => r.accepts w) = some r) : r ∈ opcodeTable ∧ r.accepts w = true :=
  ⟨List.mem_of_find?_eq_some found, List.find?_some (p := fun r => OpcodeRow.accepts r w) found⟩

theorem exists_row_of_decode {w : CmdWord} {i : Instr} (h : decode w = .ok i) :
    ∃ r ∈ opcodeTable, r.accepts w = true ∧ r.build (fields w) = i := by
  unfold decode at h
  split at h
  · next r found =>
    obtain ⟨mem, acc⟩ := find?_opcodeTable_some found
    exact ⟨r, mem, acc, Except.ok.inj h⟩
  · cases h

theorem decode_of_accepts {r : OpcodeRow} {w : CmdWord} (mem : r ∈ opcodeTable) (acc : r.accepts w = true) :
    decode w = .ok (r.build (fields w)) := by
  unfold decode
  split
  · next q found =>
    obtain ⟨mem', acc'⟩ := find?_opcodeTable_some found
    rw [eq_of_accepts mem mem' acc acc']
  · next none => exact absurd acc (List.find?_eq_none.mp none r mem)

/-- A word is rejected, under the name `rejectWord` gives it, exactly when it decodes to no command. -/
theorem decode_eq_error_iff {w : CmdWord} {e : Reject} :
    decode w = .error e ↔ (∀ i, decode w ≠ .ok i) ∧ rejectWord w = e := by
  unfold decode
  split <;> simp

/-! ### Round trips -/

/-- Settles O1: `decode_encode`, operand by operand. -/
theorem decodeInvertsEncode : Obligations.DecodeInvertsEncode := fun _ => decode_encode

/-- A signed immediate is read back from its number (spec/00_scope.md R4). -/
theorem ofInt_sext16 (v : BitVec 16) : BitVec.ofInt 16 (sext16 v) = v := by
  apply BitVec.eq_of_toNat_eq
  have := v.isLt
  rw [BitVec.toNat_ofInt]
  unfold sext16
  split <;> omega

theorem fitsSigned_sext16 (v : BitVec 16) : fitsSigned (sext16 v) = true := by
  have := v.isLt
  simp only [fitsSigned, Bool.and_eq_true, decide_eq_true_eq]
  unfold sext16
  split <;> omega

theorem fitsUnsigned_toNat (v : BitVec 16) : fitsUnsigned v.toNat = true := decide_eq_true v.isLt

theorem fitsIndex_toNat (v : BitVec 4) : fitsIndex v.toNat = true := decide_eq_true v.isLt

/-- What a row builds from the fields it accepts has these fields, and they hold its operands: the fields it does not
read are zero. -/
theorem toFields_build_of_accepts {r : OpcodeRow} {f : Fields} (mem : r ∈ opcodeTable)
    (acc : r.accepts (assembleFields f) = true) : (r.build f).toFields = f ∧ (r.build f).wf = true := by
  have tests := table_accepts f
  obtain ⟨op, row, col, imm⟩ := f
  simp only [opcodeTable, List.map_cons, List.map_nil, List.cons.injEq, and_true] at tests
  obtain ⟨setkd, setld, ldk, ldl, chk, inv, encb, decb, put, endText, rd⟩ := tests
  simp only [opcodeTable, List.mem_cons, List.not_mem_nil, or_false] at mem
  obtain rfl | rfl | rfl | rfl | rfl | rfl | rfl | rfl | rfl | rfl | rfl := mem
  all_goals
    simp only [setkd, setld, ldk, ldl, chk, inv, encb, decb, put, endText, rd, decide_eq_true_eq] at acc
    simp [Instr.toFields, Instr.wf, ofInt_sext16, fitsSigned_sext16, fitsUnsigned_toNat, fitsIndex_toNat, acc]

theorem encode_of_decode {w : CmdWord} {i : Instr} (h : decode w = .ok i) : encode i = w ∧ i.wf = true := by
  obtain ⟨r, mem, acc, rfl⟩ := exists_row_of_decode h
  obtain ⟨sameFields, wf⟩ := toFields_build_of_accepts mem ((assembleFields_fields w).symm ▸ acc)
  exact ⟨by rw [encode, sameFields, assembleFields_fields], wf⟩

/-- Settles O2: the command has the fields of the word, by the row that accepts it. -/
theorem encodeInvertsDecode : Obligations.EncodeInvertsDecode := fun _ _ => encode_of_decode

/-! ### The opcode map -/

/-- Settles O3: a row decides by `decode_of_accepts`, alone by `eq_of_accepts`; two words of one command are both its
encoding. -/
theorem decodeFollowsOpcodeMap : Obligations.DecodeFollowsOpcodeMap := by
  intro w
  refine ⟨fun r mem acc => decode_of_accepts mem (accepts_iff.mpr acc), fun r hr q hq accr accq => ?_, fun noRow => ?_,
    fun r mem => (opField_mask_and_match r mem).1, fun i decoded w' decoded' => ?_⟩
  · obtain rfl : r = q := eq_of_accepts hr hq (accepts_iff.mpr accr) (accepts_iff.mpr accq)
    exact ⟨rfl, rfl⟩
  · refine ⟨rejectWord w, decode_eq_error_iff.mpr ⟨fun i decoded => ?_, rfl⟩⟩
    obtain ⟨r, mem, acc, -⟩ := exists_row_of_decode decoded
    exact noRow r mem (accepts_iff.mp acc)
  · exact (encode_of_decode decoded').1.symm.trans (encode_of_decode decoded).1

/-! ### Rejection by name -/

/-- A word that decodes has one of the eleven opcodes. -/
theorem assignedOpcode_of_decode {w : CmdWord} {i : Instr} (h : decode w = .ok i) :
    assignedOpcode (opField w) = true := by
  obtain ⟨r, mem, acc, -⟩ := exists_row_of_decode h
  exact List.any_eq_true.mpr ⟨r, mem, by rw [opField_of_accepts mem acc, beq_self_eq_true]⟩

/-- The eleven opcodes as numbers, read off the top byte (spec/30_encoding.md R50, R52). -/
theorem assignedOpcode_opField_iff (w : CmdWord) : assignedOpcode (opField w) = true ↔
    w.toNat / 2 ^ 24 ∈ [0x10, 0x11, 0x12, 0x13, 0x20, 0x21, 0x30, 0x31, 0x32, 0x33, 0x40] := by
  have value : (opField w).toNat = w.toNat / 2 ^ 24 := by
    have := w.isLt
    rw [opField, toNat_field]
    omega
  rw [assignedOpcode_iff, ← value]
  exact (List.mem_map_of_injective fun _ _ => BitVec.eq_of_toNat_eq).symm

theorem rejectWord_eq_unassigned_iff (w : CmdWord) :
    rejectWord w = .unassignedOpcode (opField w) ↔ ¬assignedOpcode (opField w) = true := by
  unfold rejectWord
  split <;> simp [*]

theorem rejectWord_eq_unused_iff (w : CmdWord) :
    rejectWord w = .unusedFieldNotZero (opField w) ↔ assignedOpcode (opField w) = true := by
  unfold rejectWord
  split <;> simp [*]

/-- Settles O4: a word is rejected under the name `rejectWord` gives it, which asks for an assigned opcode only. -/
theorem illegalWordsRejectedByName : Obligations.IllegalWordsRejectedByName := by
  refine ⟨fun w => ?_, fun w => ?_, by decide, by decide⟩
  · rw [← assignedOpcode_opField_iff, ← rejectWord_eq_unassigned_iff]
    refine ⟨fun rejected => (decode_eq_error_iff.mp rejected).2, fun name => ?_⟩
    have unassigned := (rejectWord_eq_unassigned_iff w).mp name
    exact decode_eq_error_iff.mpr ⟨fun i decoded => unassigned (assignedOpcode_of_decode decoded), name⟩
  · rw [← assignedOpcode_opField_iff, ← rejectWord_eq_unused_iff, and_comm]
    exact decode_eq_error_iff

/-! ### Words as sums -/

/-- The word of a command as the sum of its fields (spec/30_encoding.md R50). -/
theorem encode_eq_sum (i : Instr) : encode i = BitVec.ofNat 32 (i.toFields.op.toNat * 2 ^ 24 +
    i.toFields.row.toNat * 2 ^ 20 + i.toFields.col.toNat * 2 ^ 16 + i.toFields.imm16.toNat) := by
  rw [← toNat_assembleFields, BitVec.ofNat_toNat, BitVec.setWidth_eq, encode]

/-- Settles O5: `encode_eq_sum`, an operand that fits its field being the number the field holds. -/
theorem encodedWordsAreTheTablesSums : Obligations.EncodedWordsAreTheTablesSums := by
  refine ⟨fun k hk => ?_, fun i j v hi hj low high => ?_, fun reg i j hreg hi hj => ?_, by decide⟩
  · have imm : (BitVec.ofNat 16 k).toNat = k := Nat.mod_eq_of_lt hk
    simp only [encode_eq_sum, Instr.toFields, imm]
    refine ⟨congrArg _ ?_, congrArg _ ?_, congrArg _ ?_⟩ <;> simp
  · have row : (BitVec.ofNat 4 i).toNat = i := Nat.mod_eq_of_lt hi
    have col : (BitVec.ofNat 4 j).toNat = j := Nat.mod_eq_of_lt hj
    have imm : (BitVec.ofInt 16 v).toNat = (v % 65536).toNat := BitVec.toNat_ofInt v
    simp only [encode_eq_sum, Instr.toFields, row, col, imm]
    refine ⟨congrArg _ ?_, congrArg _ ?_⟩ <;> simp
  · have row : (BitVec.ofNat 4 i).toNat = i := Nat.mod_eq_of_lt hi
    have col : (BitVec.ofNat 4 j).toNat = j := Nat.mod_eq_of_lt hj
    have imm : (BitVec.ofNat 16 reg).toNat = reg := Nat.mod_eq_of_lt hreg
    simp only [encode_eq_sum, Instr.toFields, row, col, imm]
    exact congrArg _ (by simp)

/-- Settles O6: the twelve words are decoded. -/
theorem sampleWordsDecode : Obligations.SampleWordsDecode := by
  unfold Obligations.SampleWordsDecode
  decide

end Sys2Proof
end

section
/-! PROOF. What goes out on the ports: responses in the form of spec/30_encoding.md R54, symbols in that of R60, and the
refusal of a word that decodes to no command (R55). -/

namespace Sys2Proof.Machine

/-! ### The refusal of a word -/

/-- Every word with the opcode of `RD` decodes: its row tests the opcode only (spec/30_encoding.md R52). -/
theorem exists_decode_of_rdOpcode {w : CmdWord} (h : opField w = rdOpcode) : ∃ i, decode w = .ok i := by
  have op : (fields w).op = 0x40 := h
  refine ⟨.rd (fields w).imm16.toNat (fields w).row.toNat (fields w).col.toNat, ?_⟩
  rw [← assembleFields_fields w, decode_assembleFields, fields_assembleFields, op]
  rfl

/-- Settles O8: the word does not have the opcode of `RD`, so its refusal writes `ERR`. -/
theorem undecodableWordIsRefused : Obligations.UndecodableWordIsRefused := by
  intro s w rest move undecodable
  have notRd : opField w ≠ rdOpcode := fun h => by
    obtain ⟨i, decoded⟩ := exists_decode_of_rdOpcode h
    exact undecodable i decoded
  rw [step_of_undecodable move undecodable, refuseWord, refuse_of_ne notRd]

/-! ### The form of the output -/

theorem goodSymbol_toSymbol (r : Residue) : goodSymbol (toSymbol r) := by
  have := r.isLt
  simp only [goodSymbol, toSymbol, letterA, BitVec.toNat_ofNat]
  omega

section
variable {s t : State}

/-- A response with data 0 or with the code of success keeps the form (spec/30_encoding.md R54). -/
theorem OutputForm.response (h : OutputForm s) {e : ErrCode} {d : Data}
    (out : t.out = s.out ++ [.response (responseWord e d)]) (data : e ≠ .success → d = 0) : OutputForm t := by
  obtain ⟨symbols, responses⟩ := h
  constructor
  · rw [out, symbolsOf_append, symbolsOf_response, List.append_nil]
    exact symbols
  · rw [out, responsesOf_append, responsesOf_response]
    exact List.forall_mem_append.mpr ⟨responses, List.forall_mem_singleton.mpr ⟨e, d, rfl, data⟩⟩

theorem OutputForm.answer {u : State} (h : OutputForm s) (out : u.out = s.out) {e : ErrCode} {d : Data}
    (data : e ≠ .success → d = 0) : OutputForm (answer e d u) :=
  h.response (by rw [answer_out, out]) data

/-- The letters of a block keep the form (spec/30_encoding.md R60). -/
theorem OutputForm.flushBlock (h : OutputForm s) : OutputForm (flushBlock s) := by
  obtain ⟨symbols, responses⟩ := h
  have out : (Machine.flushBlock s).out = s.out ++ ((blockOut s).map toSymbol).map .symbol := by simp
  constructor
  · rw [out, symbolsOf_append, symbolsOf_symbols]
    exact List.forall_mem_append.mpr ⟨symbols, List.forall_mem_map.mpr fun r _ => goodSymbol_toSymbol r⟩
  · rw [out, responsesOf_append, responsesOf_symbols, List.append_nil]
    exact responses

theorem OutputForm.refuse (h : OutputForm s) (op : BitVec 8) : OutputForm (refuse op s) :=
  h.response (refuse_out op s) fun _ => rfl

/-- Every answer of a command has the form: what succeeds may carry data, an error carries 0. -/
theorem Effect.outputForm {i : Instr} (effect : Effect s i t) (h : OutputForm s) : OutputForm t := by
  cases effect with
  | refused _ _ => exact h.refuse _
  | invFails | encbMismatch | decbFails | decbMismatch | putBad | endMismatch => exact h.answer (by simp) fun _ => rfl
  | putFlushes c r _ _ _ =>
    exact (OutputForm.flushBlock (s := takeLetter r s) h).answer rfl fun error => absurd rfl error
  | endFlushes _ _ => exact (OutputForm.flushBlock (s := padBlock s) h).answer rfl fun error => absurd rfl error
  | rd _ _ _ _ _ => exact h.response rfl fun error => absurd rfl error
  | _ => exact h.answer (by simp) fun error => absurd rfl error

theorem StepEffect.outputForm (effect : StepEffect s t) (h : OutputForm s) : OutputForm t := by
  cases effect with
  | held _ => exact h
  | reset rest _ => exact h
  | ran w rest i _ _ _ ran => exact ran.outputForm h
  | refusedWord w rest _ _ => exact OutputForm.refuse (s := { s with cmd := rest }) h _

end

/-- Settles O35: at reset nothing has gone out, and every kind of step keeps the form. -/
theorem outputFormKept : Obligations.OutputFormKept :=
  ⟨⟨nofun, nofun⟩, fun _ _ h next => (step_eq_next_iff.mp next).outputForm h⟩

end Sys2Proof.Machine
end

section
/-! PROOF. The expansions of spec/30_encoding.md R59: their commands are the loads of one key and one shift, so no
load undoes another (spec/40_key_load.md R74). -/

namespace Sys2Proof.Machine

/-! ### The commands of the expansions -/

/-- The loads of the `k` by `k` key `K` and the shift `L` of dimension `n`: the two dimensions and every element. -/
inductive LoadOf (k n : Nat) (K : Nat → Nat → Int) (L : Nat → Int) : Instr → Prop where
  | setkd : LoadOf k n K L (.setkd k)
  | setld : LoadOf k n K L (.setld n)
  | ldk (i j : Nat) (hi : i < k) (hj : j < k) : LoadOf k n K L (.ldk i j (K i j))
  | ldl (i : Nat) (hi : i < n) : LoadOf k n K L (.ldl i (L i))

/-- The matrix that rows of numbers spell. -/
def rowsMatrix (rows : List (List Int)) : Nat → Nat → Int := fun i j => (rows.getD i []).getD j 0

theorem mem_zipIdx_iff_getD {α : Type} {l : List α} {a d : α} {i : Nat} :
    (a, i) ∈ l.zipIdx ↔ i < l.length ∧ a = l.getD i d := by
  rw [List.mk_mem_zipIdx_iff_getElem?, List.getElem?_eq_some_iff, ← exists_prop]
  exact exists_congr fun hi => by rw [List.getD_eq_getElem l d hi, eq_comm]

theorem mem_expandKey_iff {rows : List (List Int)} {is : List Instr} (h : expandKey rows = some is) {i : Instr} :
    i ∈ is ↔ i = .setkd rows.length ∨
      ∃ a < rows.length, ∃ b < rows.length, i = .ldk a b (rowsMatrix rows a b) := by
  unfold expandKey at h
  split at h
  · next square =>
    obtain rfl := Option.some.inj h
    have length : ∀ a < rows.length, (rows.getD a []).length = rows.length := fun a ha => by
      rw [List.getD_eq_getElem rows [] ha]
      exact eq_of_beq (List.all_eq_true.mp square _ (List.getElem_mem ha))
    simp only [List.mem_cons, List.mem_flatMap, List.mem_map, Prod.exists, mem_zipIdx_iff_getD (d := []),
      mem_zipIdx_iff_getD (d := (0 : Int))]
    refine or_congr Iff.rfl ⟨?_, ?_⟩
    · rintro ⟨_, a, ⟨ha, rfl⟩, _, b, ⟨hb, rfl⟩, rfl⟩
      rw [length a ha] at hb
      exact ⟨a, ha, b, hb, rfl⟩
    · rintro ⟨a, ha, b, hb, rfl⟩
      rw [← length a ha] at hb
      exact ⟨_, a, ⟨ha, rfl⟩, _, b, ⟨hb, rfl⟩, rfl⟩
  · cases h

theorem mem_expandShift_iff {ns : List Int} {i : Instr} :
    i ∈ expandShift ns ↔ i = .setld ns.length ∨ ∃ a < ns.length, i = .ldl a (ns.getD a 0) := by
  simp only [expandShift, List.mem_cons, List.mem_map, Prod.exists, mem_zipIdx_iff_getD (d := (0 : Int))]
  refine or_congr Iff.rfl ⟨?_, ?_⟩
  · rintro ⟨v, a, ⟨ha, rfl⟩, rfl⟩
    exact ⟨a, ha, rfl⟩
  · rintro ⟨a, ha, rfl⟩
    exact ⟨_, a, ⟨ha, rfl⟩, rfl⟩

/-- The commands of `KEY` and `SHIFT` are the loads of what they spell, no more and no fewer. -/
theorem mem_expansions_iff {rows : List (List Int)} {ns : List Int} {is : List Instr} (h : expandKey rows = some is)
    {i : Instr} : i ∈ is ++ expandShift ns ↔
      LoadOf rows.length ns.length (rowsMatrix rows) (fun a => ns.getD a 0) i := by
  rw [List.mem_append, mem_expandKey_iff h, mem_expandShift_iff]
  constructor
  · rintro ((rfl | ⟨a, ha, b, hb, rfl⟩) | (rfl | ⟨a, ha, rfl⟩))
    · exact .setkd
    · exact .ldk a b ha hb
    · exact .setld
    · exact .ldl a ha
  · rintro (_ | _ | ⟨a, b, ha, hb⟩ | ⟨a, ha⟩)
    · exact .inl (.inl rfl)
    · exact .inr (.inl rfl)
    · exact .inl (.inr ⟨a, ha, b, hb, rfl⟩)
    · exact .inr (.inr ⟨a, ha, rfl⟩)

/-! ### Executing them -/

/-- Writing what `g` has at an element leaves the elements that agree with `g` in agreement. -/
theorem Mat.get_set_eq_of_eq {m : Mat} (g : Nat → Nat → Residue) (i j : Nat) {a b : Nat} (h : Mat.get m a b = g a b) :
    Mat.get (Mat.set m i j (g i j)) a b = g a b := by
  rw [Mat.get_set]
  split
  · next same =>
    obtain ⟨rfl, rfl, -⟩ := same
    rfl
  · exact h

theorem Vec.get_set_eq_of_eq {v : Vec} (g : Nat → Residue) (i : Nat) {a : Nat} (h : Vec.get v a = g a) :
    Vec.get (Vec.set v i (g i)) a = g a := by
  rw [Vec.get_set]
  split
  · next same =>
    obtain ⟨rfl, -⟩ := same
    rfl
  · exact h

/-- What an accepted load leaves at its destination (spec/40_key_load.md R70 to R73). -/
def Loaded (t : State) : Instr → Prop
  | .setkd k => t.kdim = k ∧ t.detv = false ∧ t.unit = false ∧ t.kiv = false
  | .setld k => t.ldim = k
  | .ldk i j v => Mat.get t.km i j = mod26 v
  | .ldl i v => Vec.get t.sv i = mod26 v
  | _ => False

section
variable {k n : Nat} {K : Nat → Nat → Int} {L : Nat → Int} {s : State}
  (hcap : s.cap ≤ 16) (hk : 1 ≤ k ∧ k ≤ s.cap) (hn : 1 ≤ n ∧ n ≤ s.cap)

include hcap hk hn in
/-- From `IDLE` a load is accepted, leaves its value, and keeps what any load of the same key and shift has left. -/
theorem LoadOf.exists_effect {i : Instr} (load : LoadOf k n K L i) (idle : s.mode = .idle) :
    ∃ t, Effect s i t ∧ t.mode = .idle ∧ t.cap = s.cap ∧ Loaded t i ∧
      ∀ j, LoadOf k n K L j → Loaded s j → Loaded t j := by
  cases load with
  | setkd =>
    refine ⟨_, .setkd k idle ((legalDim_iff k s).mpr hk), idle, rfl, ⟨rfl, rfl, rfl, rfl⟩, fun j hj before => ?_⟩
    cases hj with
    | setkd => exact ⟨rfl, rfl, rfl, rfl⟩
    | _ => exact before
  | setld =>
    refine ⟨_, .setld n idle ((legalDim_iff n s).mpr hn), idle, rfl, rfl, fun j hj before => ?_⟩
    cases hj with
    | setld => rfl
    | _ => exact before
  | ldk a b ha hb =>
    have written : Mat.get (Mat.set s.km a b (mod26 (K a b))) a b = mod26 (K a b) := by
      rw [Mat.get_set, if_pos (by omega)]
    refine ⟨_, .ldk a b (K a b) idle ((legalIndex_iff a s).mpr (by omega)) ((legalIndex_iff b s).mpr (by omega)), idle,
      rfl, written, fun j hj before => ?_⟩
    cases hj with
    | setkd =>
      obtain ⟨kdim, -⟩ := before
      exact ⟨kdim, rfl, rfl, rfl⟩
    | ldk c d _ _ => exact Mat.get_set_eq_of_eq (fun i j => mod26 (K i j)) a b before
    | _ => exact before
  | ldl a ha =>
    have written : Vec.get (Vec.set s.sv a (mod26 (L a))) a = mod26 (L a) := by
      rw [Vec.get_set, if_pos (by omega)]
    refine ⟨_, .ldl a (L a) idle ((legalIndex_iff a s).mpr (by omega)), idle, rfl, written, fun j hj before => ?_⟩
    cases hj with
    | ldl c _ => exact Vec.get_set_eq_of_eq (fun i => mod26 (L i)) a before
    | _ => exact before

theorem execList_cons_of_effect {i : Instr} {is : List Instr} {u : State} (effect : Effect s i u) :
    execList (i :: is) s = execList is u := by
  simp [execList, effect.exec_eq]

include hcap hk hn in
/-- Loads of one key and one shift, in any order and number: each has its value at the end. -/
theorem execList_loads {is : List Instr} (loads : ∀ i ∈ is, LoadOf k n K L i) (idle : s.mode = .idle) :
    ∃ t, execList is s = .next t ∧ t.mode = .idle ∧
      ∀ j, LoadOf k n K L j → (Loaded s j ∨ j ∈ is) → Loaded t j := by
  induction is generalizing s with
  | nil => exact ⟨s, rfl, idle, fun j _ before => before.resolve_right List.not_mem_nil⟩
  | cons i is ih =>
    have hi := loads i List.mem_cons_self
    obtain ⟨u, effect, idleU, capU, written, kept⟩ := hi.exists_effect hcap hk hn idle
    rw [← capU] at hcap hk hn
    obtain ⟨t, run, idleT, all⟩ := ih hcap hk hn (fun j hj => loads j (List.mem_cons_of_mem i hj)) idleU
    refine ⟨t, (execList_cons_of_effect effect).trans run, idleT, fun j hj before => all j hj ?_⟩
    obtain before | mem := before
    · exact .inl (kept j hj before)
    · obtain rfl | later := List.mem_cons.mp mem
      · exact .inl written
      · exact .inr later

end

/-- Settles O60: the commands are the loads of what is spelled (`mem_expansions_iff`), and each leaves its value
(`execList_loads`). -/
theorem expansionsLoadKeyAndShift : Obligations.ExpansionsLoadKeyAndShift := by
  intro rows ns is s idle hcap rowsPos rowsFit nsPos nsFit expansion
  obtain ⟨t, run, idleT, all⟩ := execList_loads hcap ⟨rowsPos, rowsFit⟩ ⟨nsPos, nsFit⟩
    (fun i => (mem_expansions_iff (ns := ns) expansion).mp) idle
  have loaded := fun j load => all j load (.inr ((mem_expansions_iff expansion).mpr load))
  obtain ⟨kdim, flags⟩ := loaded _ .setkd
  exact ⟨t, run, kdim, loaded _ .setld, fun i hi j hj => loaded _ (.ldk i j hi hj), fun i hi => loaded _ (.ldl i hi),
    idleT, flags⟩

end Sys2Proof.Machine
end

section
/-! PROOF. The statements about spec/40_key_load.md: what `SETKD`, `SETLD`, `LDK`, `LDL` write and answer (R70 to R73),
what they leave unchanged, and a list of them (R74). -/

namespace Sys2Proof

/-! ### The words -/

theorem decode_of_encode_eq {i : Instr} {w : CmdWord} (word : encode i = w) (wf : i.wf = true) : decode w = .ok i :=
  word ▸ decode_encode wf

/-- The word of any fields as their sum (spec/30_encoding.md R50). -/
theorem ofNat_eq_assembleFields (op : Nat) {row col imm : Nat} (hrow : row < 16) (hcol : col < 16)
    (himm : imm < 65536) : BitVec.ofNat 32 (op * 2 ^ 24 + row * 2 ^ 20 + col * 2 ^ 16 + imm) =
      assembleFields ⟨BitVec.ofNat 8 op, BitVec.ofNat 4 row, BitVec.ofNat 4 col, BitVec.ofNat 16 imm⟩ := by
  apply BitVec.eq_of_toNat_eq
  rw [toNat_assembleFields]
  simp only [BitVec.toNat_ofNat]
  omega

/-- An `LDL` word with `col` not zero fails the mask (spec/40_key_load.md R73). -/
theorem decode_ldl_of_col_pos {row col imm : Nat} (hrow : row < 16) (colPos : 0 < col) (hcol : col < 16)
    (himm : imm < 65536) : decode (BitVec.ofNat 32 (0x13000000 + row * 2 ^ 20 + col * 2 ^ 16 + imm)) =
      .error (.unusedFieldNotZero 0x13) := by
  have colNe : BitVec.ofNat 4 col ≠ 0#4 := fun h => by
    have := congrArg BitVec.toNat h
    rw [BitVec.toNat_ofNat, Nat.mod_eq_of_lt hcol] at this
    exact colPos.ne' this
  refine (congrArg decode (ofNat_eq_assembleFields 0x13 hrow hcol himm)).trans ?_
  rw [decode_assembleFields]
  simp [colNe]

end Sys2Proof

namespace Sys2Proof.Machine

/-! ### Acceptance and refusal -/

section
variable {s t : State} {i : Instr}

theorem acceptedIn_of_isKeyLoad (load : isKeyLoad i = true) (m : Mode) : acceptedIn m i = (m == .idle) := by
  cases i with
  | setkd | setld | ldk | ldl => rfl
  | _ => simp [isKeyLoad] at load

/-- The ranges of the operands of a key load look at `KMAX` only (spec/30_encoding.md R53). -/
theorem operandsLegal_congr_cap (load : isKeyLoad i = true) (cap : t.cap = s.cap) :
    operandsLegal t i = operandsLegal s i := by
  cases i with
  | setkd | setld | ldk | ldl => simp only [operandsLegal, legalDim, legalIndex, cap]
  | _ => simp [isKeyLoad] at load

/-- All that a key load does in a session or with an operand out of range (spec/60_exceptions.md R146). -/
theorem exec_keyLoad_refused (load : isKeyLoad i = true) (bad : ¬(s.mode = .idle ∧ operandsLegal s i = true)) :
    exec i s = .next { s with err := .illegalCommand, out := s.out ++ [.response 0x50000000] } := by
  have notRd : i.opcode ≠ rdOpcode := by
    cases i with
    | rd => simp [isKeyLoad] at load
    | _ => simp [Instr.opcode, rdOpcode]
  have refused : acceptedIn s.mode i = false ∨ operandsLegal s i = false := by
    rw [acceptedIn_of_isKeyLoad load, beq_eq_false_iff_ne, ← Bool.not_eq_true]
    exact not_and_or.mp bad
  rw [exec_refused refused, refuse_of_ne notRd]

/-- A success answers its data as a number. -/
theorem succeed_of_lt {n : Nat} (h : n < 65536) (s : State) :
    succeed n s = { s with err := .success, out := s.out ++ [.response (BitVec.ofNat 32 n)] } := by
  rw [← responseWord_success n h]
  rfl

theorem succeed_residue (r : Residue) (s : State) :
    succeed r.val s = { s with err := .success, out := s.out ++ [.response (BitVec.ofNat 32 r.val)] } :=
  succeed_of_lt (by omega) s

/-- What a key load with legal operands leads to from `IDLE` (spec/40_key_load.md R70 to R73). -/
inductive AcceptedLoad (s : State) : Instr → State → Prop where
  | setkd (k : Nat) : AcceptedLoad s (.setkd k) (succeed k (clearKeyFlags { s with kdim := k }))
  | setld (k : Nat) : AcceptedLoad s (.setld k) (succeed k { s with ldim := k })
  | ldk (row col : Nat) (v : Int) (hrow : row < s.cap) (hcol : col < s.cap) : AcceptedLoad s (.ldk row col v)
      (succeed (mod26 v).val (clearKeyFlags { s with km := Mat.set s.km row col (mod26 v) }))
  | ldl (row : Nat) (v : Int) (hrow : row < s.cap) :
      AcceptedLoad s (.ldl row v) (succeed (mod26 v).val { s with sv := Vec.set s.sv row (mod26 v) })

theorem Effect.refused_or_acceptedLoad (effect : Effect s i t) (load : isKeyLoad i = true) :
    ((acceptedIn s.mode i = false ∨ operandsLegal s i = false) ∧ t = refuse i.opcode s) ∨ AcceptedLoad s i t := by
  cases effect with
  | refused _ bad => exact .inl ⟨bad, rfl⟩
  | setkd k _ _ => exact .inr (.setkd k)
  | setld k _ _ => exact .inr (.setld k)
  | ldk row col v _ rowLegal colLegal =>
    exact .inr (.ldk row col v ((legalIndex_iff row s).mp rowLegal) ((legalIndex_iff col s).mp colLegal))
  | ldl row v _ legal => exact .inr (.ldl row v ((legalIndex_iff row s).mp legal))
  | _ => simp [isKeyLoad] at load

theorem exists_acceptedLoad (load : isKeyLoad i = true) (idle : s.mode = .idle) (legal : operandsLegal s i = true) :
    ∃ t, Effect s i t ∧ AcceptedLoad s i t := by
  have acc : acceptedIn s.mode i = true := idle ▸ acceptedIn_idle_of_isKeyLoad load
  obtain ⟨t, effect⟩ := exists_effect_of_accepted acc legal
  obtain ⟨bad, -⟩ | accepted := effect.refused_or_acceptedLoad load
  · simp [acc, legal] at bad
  · exact ⟨t, effect, accepted⟩

theorem AcceptedLoad.mode_eq (accepted : AcceptedLoad s i t) : t.mode = s.mode := by cases accepted <;> rfl

theorem AcceptedLoad.cap_eq (accepted : AcceptedLoad s i t) : t.cap = s.cap := by cases accepted <;> rfl

end

/-- Settles O14: `Effect.setkd` when it is accepted, `exec_keyLoad_refused` otherwise. -/
theorem setkdResult : Obligations.SetkdResult := by
  intro k s hk
  obtain ⟨word, -⟩ := encodedWordsAreTheTablesSums.1 k hk
  refine ⟨fun idle pos fits => ?_, fun bad => ?_, decode_of_encode_eq word (decide_eq_true hk)⟩
  · exact ((Effect.setkd k idle ((legalDim_iff k s).mpr ⟨pos, fits⟩)).of_eq (succeed_of_lt hk _)).exec_eq
  · exact exec_keyLoad_refused rfl (by rwa [operandsLegal, legalDim_iff])

/-- Settles O16: `Effect.ldk` when it is accepted, `exec_keyLoad_refused` otherwise; every index below `KMAX` is a cell
of `KM`. -/
theorem ldkResult : Obligations.LdkResult := by
  intro row col v s hcap
  refine ⟨fun idle hrow hcol => ⟨Mat.set s.km row col (mod26 v), ?_, fun i j => ?_⟩, fun bad => ?_,
    fun hrow hcol low high => ?_, by decide⟩
  · exact ((Effect.ldk row col v idle ((legalIndex_iff row s).mpr hrow) ((legalIndex_iff col s).mpr hcol)).of_eq
      (succeed_residue _ _)).exec_eq
  · rw [Mat.get_set]
    exact if_congr (by omega) rfl rfl
  · exact exec_keyLoad_refused rfl (by rwa [operandsLegal, Bool.and_eq_true, legalIndex_iff, legalIndex_iff])
  · obtain ⟨word, -⟩ := encodedWordsAreTheTablesSums.2.1 row col v hrow hcol low high
    exact decode_of_encode_eq word (by simp [Instr.wf, fitsIndex, fitsSigned, *])

/-- Settles O17: `Effect.ldl` when it is accepted, `exec_keyLoad_refused` otherwise; `decode_ldl_of_col_pos` for the
words that are rejected. -/
theorem ldlResult : Obligations.LdlResult := by
  intro row v s hcap
  refine ⟨fun idle hrow => ⟨Vec.set s.sv row (mod26 v), ?_, fun i => ?_⟩, fun bad => ?_,
    fun hrow low high => ⟨?_, fun col colPos hcol => ?_⟩⟩
  · exact ((Effect.ldl row v idle ((legalIndex_iff row s).mpr hrow)).of_eq (succeed_residue _ _)).exec_eq
  · rw [Vec.get_set]
    exact if_congr (by omega) rfl rfl
  · exact exec_keyLoad_refused rfl (by rwa [operandsLegal, legalIndex_iff])
  · obtain ⟨-, word⟩ := encodedWordsAreTheTablesSums.2.1 row 0 v hrow (by decide) low high
    exact decode_of_encode_eq word (by simp [Instr.wf, fitsIndex, fitsSigned, *])
  · exact decode_ldl_of_col_pos hrow colPos hcol (by omega)

/-! ### Who looks at `LDIM` -/

/-- The state with another declared dimension of the shift vector. -/
def State.withLdim (s : State) (k : Nat) : State := { s with ldim := k }

section
variable {s t : State} {i : Instr}

theorem refuse_withLdim (op : BitVec 8) (s : State) (k : Nat) :
    refuse op (s.withLdim k) = (refuse op s).withLdim k := by
  unfold refuse
  split <;> rfl

theorem computeInverse_withLdim (s : State) (k : Nat) :
    computeInverse (s.withLdim k) = (computeInverse s).withLdim k := by
  rw [computeInverse.eq_def s, apply_ite (State.withLdim · k)]
  rfl

/-- Only register 2 shows `LDIM`. -/
theorem regName_eq_ldim {reg : Nat} (h : regName reg = some .ldim) : reg = 0x0002 := by
  unfold regName at h
  split at h
  case h_3 => rfl
  all_goals cases h

theorem readReg_withLdim {reg : Nat} (notLdim : reg ≠ 0x0002) (row col : Nat) (s : State) (k : Nat) :
    readReg reg row col (s.withLdim k) = readReg reg row col s := by
  unfold readReg
  cases name : regName reg with
  | none => rfl
  | some r =>
    cases r with
    | ldim => exact absurd (regName_eq_ldim name) notLdim
    | _ => rfl

/-- No command but `ENCB`, `DECB`, `SETLD` and `RD` of `LDIM` looks at `LDIM` or writes it: with another value there it
takes the same path (spec/40_key_load.md R71). -/
theorem Effect.withLdim (effect : Effect s i t) (notEncb : i ≠ .encb) (notDecb : i ≠ .decb)
    (notRdLdim : ∀ row col, i ≠ .rd 0x0002 row col) (notSetld : ∀ k', i ≠ .setld k') (k : Nat) :
    Effect (s.withLdim k) i (t.withLdim k) := by
  have inverse := computeInverse_withLdim s k
  have notLdim : ∀ {reg row col}, i = .rd reg row col → reg ≠ 0x0002 := by
    rintro _ row col rfl rfl
    exact notRdLdim row col rfl
  cases effect with
  | refused _ bad =>
    have legal : operandsLegal (s.withLdim k) i = operandsLegal s i := by
      cases i with
      | rd reg row col => exact congrArg Option.isSome (readReg_withLdim (notLdim rfl) row col s k)
      | _ => rfl
    exact .of_eq (.refused i (by rwa [legal])) (refuse_withLdim _ s k)
  | setkd k' idle legal => exact .setkd k' idle legal
  | setld k' _ _ => exact absurd rfl (notSetld k')
  | ldk row col v idle rowLegal colLegal => exact .ldk row col v idle rowLegal colLegal
  | ldl row v idle legal => exact .ldl row v idle legal
  | chk idle => exact .chk idle
  | invFails idle noUnit => exact .of_eq (.invFails idle noUnit) (congrArg (raise _) inverse)
  | invStores idle isUnit => exact .of_eq (.invStores idle isUnit) (congrArg (succeed _) inverse)
  | encbMismatch | encbOpens => exact absurd rfl notEncb
  | decbFails | decbMismatch | decbOpens => exact absurd rfl notDecb
  | putBad c session noLetter => exact .putBad c session noLetter
  | putFlushes c r session letter full => exact .putFlushes c r session letter full
  | putTakes c r session letter notFull => exact .putTakes c r session letter notFull
  | endFlushes enc partBlock => exact .endFlushes enc partBlock
  | endMismatch dec partBlock => exact .endMismatch dec partBlock
  | endCloses session empty => exact .endCloses session empty
  | rd reg row col v legal => exact .rd reg row col v (by rwa [readReg_withLdim (notLdim rfl)])

end

/-- Settles O15: `Effect.setld` when it is accepted, after it `Effect.encbMismatch`, `exec_keyLoad_refused` otherwise,
and `Effect.withLdim` for the other commands. -/
theorem setldResult : Obligations.SetldResult := by
  intro k s hk
  obtain ⟨-, word, -⟩ := encodedWordsAreTheTablesSums.1 k hk
  refine ⟨fun idle pos fits => ?_, fun bad => ?_, decode_of_encode_eq word (decide_eq_true hk),
    fun i notEncb notDecb notRdLdim notSetld => ?_⟩
  · have effect := Effect.setld k idle ((legalDim_iff k s).mpr ⟨pos, fits⟩)
    refine ⟨(effect.of_eq (succeed_of_lt hk _)).exec_eq, fun dims => ?_⟩
    have mismatch : Effect (succeed k { s with ldim := k }) .encb _ := .encbMismatch idle dims
    rw [execList_cons_of_effect effect, execList_cons_of_effect mismatch, execList, succeed_of_lt hk]
    simp [raise, answer, respond, responseWord_dimensionMismatch]
  · exact exec_keyLoad_refused rfl (by rwa [operandsLegal, legalDim_iff])
  · obtain ⟨t, effect⟩ := exists_effect s i
    exact ⟨t, effect.exec_eq, (effect.withLdim notEncb notDecb notRdLdim notSetld k).exec_eq⟩

/-! ### The frame -/

theorem Mat.get_set_of_ne (m : Mat) {i j a b : Nat} (r : Residue) (other : ¬(a = i ∧ b = j)) :
    Mat.get (Mat.set m i j r) a b = Mat.get m a b := by
  rw [Mat.get_set, if_neg (by omega)]

theorem Vec.get_set_of_ne (v : Vec) {i a : Nat} (r : Residue) (other : a ≠ i) :
    Vec.get (Vec.set v i r) a = Vec.get v a := by
  rw [Vec.get_set, if_neg (by omega)]

/-- Settles O26: a refusal leaves everything but `ERR` and the output, and each accepted load has one destination. -/
theorem keyLoadFrame : Obligations.KeyLoadFrame := by
  intro i s t load next
  obtain ⟨-, rfl⟩ | accepted := (exec_eq_next_iff.mp next).refused_or_acceptedLoad load
  · simp
  · cases accepted with
    | setkd k => simp
    | setld k => simp
    | ldk row col v _ _ => simp +contextual [Mat.get_set_of_ne]
    | ldl row v _ => simp +contextual [Vec.get_set_of_ne]

/-! ### A list of key loads -/

/-- What an accepted load writes to `KDIM`, and below to the other targets of spec/40_key_load.md R74. -/
def kdimWritten : Instr → Option Nat
  | .setkd k => some k
  | _ => none

def ldimWritten : Instr → Option Nat
  | .setld k => some k
  | _ => none

def kmWritten (a b : Nat) : Instr → Option Residue
  | .ldk x y v => if x = a ∧ y = b then some (mod26 v) else none
  | _ => none

def svWritten (a : Nat) : Instr → Option Residue
  | .ldl x v => if x = a then some (mod26 v) else none
  | _ => none

/-- `DETV`, `UNIT`, `KIV`. -/
def keyFlags (s : State) : Bool × Bool × Bool := (s.detv, s.unit, s.kiv)

def keyFlagsWritten : Instr → Option (Bool × Bool × Bool)
  | .setkd _ => some (false, false, false)
  | .ldk _ _ _ => some (false, false, false)
  | _ => none

/-- Every accepted load leaves the target `read` at what it writes to it, or as it was. -/
def TargetOfLoads {α : Type} (read : State → α) (written : Instr → Option α) : Prop :=
  ∀ (s t : State) (i : Instr), s.cap ≤ 16 → AcceptedLoad s i t → read t = (written i).getD (read s)

theorem targetOfLoads_kdim : TargetOfLoads State.kdim kdimWritten := by
  rintro s _ _ - (_ | _ | _ | _) <;> rfl

theorem targetOfLoads_ldim : TargetOfLoads State.ldim ldimWritten := by
  rintro s _ _ - (_ | _ | _ | _) <;> rfl

theorem targetOfLoads_keyFlags : TargetOfLoads keyFlags keyFlagsWritten := by
  rintro s _ _ - (_ | _ | _ | _) <;> rfl

theorem targetOfLoads_km (a b : Nat) : TargetOfLoads (fun s => Mat.get s.km a b) (kmWritten a b) := by
  rintro s _ _ hcap (_ | _ | ⟨x, y, v, hx, hy⟩ | _)
  case ldk =>
    by_cases same : x = a ∧ y = b
    · rw [kmWritten, if_pos same]
      exact (Mat.get_set ..).trans (if_pos (by omega))
    · rw [kmWritten, if_neg same]
      exact Mat.get_set_of_ne _ _ (by omega)
  all_goals rfl

theorem targetOfLoads_sv (a : Nat) : TargetOfLoads (fun s => Vec.get s.sv a) (svWritten a) := by
  rintro s _ _ hcap (_ | _ | _ | ⟨x, v, hx⟩)
  case ldl =>
    by_cases same : x = a
    · rw [svWritten, if_pos same]
      exact (Vec.get_set ..).trans (if_pos (by omega))
    · rw [svWritten, if_neg same]
      exact Vec.get_set_of_ne _ _ (Ne.symm same)
  all_goals rfl

theorem getLastD_filterMap_cons {α β : Type} (f : α → Option β) (x : α) (xs : List α) (d : β) :
    ((x :: xs).filterMap f).getLastD d = (xs.filterMap f).getLastD ((f x).getD d) := by
  cases h : f x with
  | none => rw [List.filterMap_cons_none h, Option.getD_none]
  | some y => rw [List.filterMap_cons_some h, List.getLastD_cons, Option.getD_some]

theorem getLastD_eq_of_forall {α : Type} {l : List α} {a d : α} (all : ∀ x ∈ l, x = a) (ne : l ≠ []) :
    l.getLastD d = a := by
  rw [List.getLastD_eq_getLast?, List.getLast?_eq_some_getLast ne]
  exact all _ (List.getLast_mem ne)

/-- Accepted loads, one after the other, leave every target at the last value they write to it. -/
theorem execList_keyLoads {is : List Instr} {s : State} (idle : s.mode = .idle) (hcap : s.cap ≤ 16)
    (loads : ∀ i ∈ is, isKeyLoad i = true ∧ operandsLegal s i = true) :
    ∃ t, execList is s = .next t ∧ ∀ {α : Type} {read : State → α} {written : Instr → Option α},
      TargetOfLoads read written → read t = (is.filterMap written).getLastD (read s) := by
  induction is generalizing s with
  | nil => exact ⟨s, rfl, fun _ => rfl⟩
  | cons i is ih =>
    obtain ⟨load, legal⟩ := loads i List.mem_cons_self
    obtain ⟨u, effect, accepted⟩ := exists_acceptedLoad load idle legal
    obtain ⟨t, run, last⟩ := ih (accepted.mode_eq.trans idle) (accepted.cap_eq.trans_le hcap) fun j hj => by
      obtain ⟨loadJ, legalJ⟩ := loads j (List.mem_cons_of_mem i hj)
      exact ⟨loadJ, (operandsLegal_congr_cap loadJ accepted.cap_eq).trans legalJ⟩
    refine ⟨t, (execList_cons_of_effect effect).trans run, fun target => ?_⟩
    rw [last target, target s u i hcap accepted, getLastD_filterMap_cons]

/-- A list with a `SETKD` or an `LDK` has the flags clear at the end: all it writes to them is 0. -/
theorem getLastD_keyFlagsWritten {is : List Instr} (newKey : ∃ i ∈ is, (∃ k, i = .setkd k) ∨ ∃ a b v, i = .ldk a b v)
    (before : Bool × Bool × Bool) : (is.filterMap keyFlagsWritten).getLastD before = (false, false, false) := by
  obtain ⟨i, mem, hi⟩ := newKey
  apply getLastD_eq_of_forall
  · intro flags written
    obtain ⟨j, -, hj⟩ := List.mem_filterMap.mp written
    cases j with
    | setkd | ldk => exact (Option.some.inj hj).symm
    | _ => cases hj
  · refine List.ne_nil_of_mem (List.mem_filterMap.mpr ⟨i, mem, ?_⟩) (a := (false, false, false))
    obtain ⟨k, rfl⟩ | ⟨a, b, v, rfl⟩ := hi <;> rfl

/-- Settles O43: `execList_keyLoads` for each target. -/
theorem keyLoadOrderIndependence : Obligations.KeyLoadOrderIndependence := by
  intro is s idle hcap loads
  obtain ⟨t, run, last⟩ := execList_keyLoads idle hcap loads
  refine ⟨t, run, last targetOfLoads_kdim, last targetOfLoads_ldim, fun a b => last (targetOfLoads_km a b),
    fun a => last (targetOfLoads_sv a), fun newKey => ?_⟩
  have flags : keyFlags t = (false, false, false) :=
    (last targetOfLoads_keyFlags).trans (getLastD_keyFlagsWritten newKey _)
  simpa [keyFlags] using flags

end Sys2Proof.Machine
end

section
/-! PROOF. The matrix functions of spec/41_modular_matrix.md section 1 are those of the library: determinant and
adjugate over the integers (R81 to R83). -/

namespace Sys2Proof.Machine

/-- The `k` by `k` part of an integer matrix as a matrix of the library. -/
def toMatrix (k : Nat) (M : IntMatrix) : Matrix (Fin k) (Fin k) Int := .of fun i j => M i j

@[simp] theorem toMatrix_apply (k : Nat) (M : IntMatrix) (i j : Fin k) : toMatrix k M i j = M i j := rfl

theorem sumTo_eq_sum_fin (k : Nat) (f : Nat → Int) : sumTo k f = ∑ j : Fin k, f j :=
  (sumTo_eq_sum k f).trans (Finset.sum_range f)

/-- The product of the library, row times column. -/
theorem toMatrix_mul (k : Nat) (M N : IntMatrix) :
    toMatrix k M * toMatrix k N = toMatrix k fun i j => sumTo k fun l => M i l * N l j := by
  ext i j
  rw [Matrix.mul_apply, toMatrix_apply, sumTo_eq_sum_fin]
  rfl

/-- Deleting a row keeps the order of the others, as `Fin.succAbove` does. -/
theorem val_succAbove {k : Nat} (r : Fin (k + 1)) (i : Fin k) :
    (r.succAbove i : Nat) = if (i : Nat) < r then (i : Nat) else i + 1 := by
  rw [Fin.succAbove, apply_ite Fin.val]
  rfl

theorem toMatrix_minor (k : Nat) (M : IntMatrix) (r c : Fin (k + 1)) :
    toMatrix k (minor M r c) = (toMatrix (k + 1) M).submatrix r.succAbove c.succAbove := by
  ext i j
  simp only [minor, toMatrix_apply, Matrix.submatrix_apply, val_succAbove]

theorem det_eq_det_toMatrix (k : Nat) (M : IntMatrix) : det k M = (toMatrix k M).det := by
  induction k generalizing M with
  | zero => exact Matrix.det_fin_zero.symm
  | succ k ih =>
    rw [det, sumTo_eq_sum_fin, Matrix.det_succ_row_zero]
    refine Finset.sum_congr rfl fun j _ => ?_
    rw [altSign_eq_pow, ih, ← Fin.succAbove_zero, ← toMatrix_minor]
    rfl

theorem toMatrix_adj (k : Nat) (M : IntMatrix) : toMatrix k (adj k M) = (toMatrix k M).adjugate := by
  cases k with
  | zero => exact Subsingleton.elim _ _
  | succ k =>
    ext i j
    rw [Matrix.adjugate_fin_succ_eq_det_submatrix, ← toMatrix_minor, ← det_eq_det_toMatrix, ← altSign_eq_pow,
      Nat.add_comm j.val]
    rfl

/-- Settles O46: `det_eq_det_toMatrix`, by the expansion of the library's determinant along row 0. -/
theorem determinantIsExact : Obligations.DeterminantIsExact := det_eq_det_toMatrix

/-- The scalar matrix `d * I` of the library, entry by entry. -/
theorem toMatrix_scalar (k : Nat) (d : Int) : toMatrix k (fun i j => if i = j then d else 0) = d • 1 := by
  ext i j
  simp [Matrix.one_apply, Fin.val_inj]

theorem toMatrix_eq_iff {k : Nat} {M N : IntMatrix} :
    toMatrix k M = toMatrix k N ↔ ∀ i < k, ∀ j < k, M i j = N i j := by
  simp only [← Matrix.ext_iff, toMatrix_apply, Fin.forall_iff]

theorem toMatrix_mul_eq_scalar_iff {k : Nat} {M N : IntMatrix} {d : Int} : toMatrix k M * toMatrix k N = d • 1 ↔
    ∀ i < k, ∀ j < k, (sumTo k fun l => M i l * N l j) = if i = j then d else 0 := by
  rw [toMatrix_mul, ← toMatrix_scalar, toMatrix_eq_iff]

/-- Settles O47: both products of the library's matrix with its adjugate are its determinant times the identity. -/
theorem adjugateIdentity : Obligations.AdjugateIdentity := by
  intro k M i j hi hj
  have right : toMatrix k M * toMatrix k (adj k M) = det k M • 1 := by
    rw [toMatrix_adj, Matrix.mul_adjugate, det_eq_det_toMatrix]
  have left : toMatrix k (adj k M) * toMatrix k M = det k M • 1 := by
    rw [toMatrix_adj, Matrix.adjugate_mul, det_eq_det_toMatrix]
  exact ⟨toMatrix_mul_eq_scalar_iff.mp right i hi j hj, toMatrix_mul_eq_scalar_iff.mp left i hi j hj⟩

end Sys2Proof.Machine
end

section
/-! PROOF. Arithmetic modulo 26 (spec/41_modular_matrix.md R80, R84, R85, R88) is that of the ring `ZMod 26`: `mod26`
identifies the integers with one image there, and that image respects determinants and adjugates. -/

namespace Sys2Proof.Machine

/-! ### Integers -/

theorem mod26_eq_iff_cast (x y : Int) : mod26 x = mod26 y ↔ (x : ZMod 26) = y :=
  (mod26_eq_iff x y).trans (ZMod.intCast_eq_intCast_iff' x y 26).symm

@[simp] theorem cast_resVal_mod26 (x : Int) : (resVal (mod26 x) : ZMod 26) = x :=
  (mod26_eq_iff_cast _ x).mp (mod26_resVal _)

theorem cast_resVal_injective : Function.Injective fun r : Residue => (resVal r : ZMod 26) := fun a b h => by
  rw [← mod26_resVal a, ← mod26_resVal b, mod26_eq_iff_cast]
  exact h

/-- A product leaves remainder 1 exactly when it is 1 in the ring. -/
theorem mul_emod_eq_one_iff (x y : Int) : x * y % 26 = 1 ↔ (x : ZMod 26) * y = 1 := by
  have ring := (mod26_eq_iff (x * y) 1).symm.trans (mod26_eq_iff_cast (x * y) 1)
  rwa [Int.cast_mul, Int.cast_one] at ring

/-- The units of spec/41_modular_matrix.md R80 are the integers coprime to 26. -/
theorem isUnit26_mod26_iff_gcd (x : Int) : isUnit26 (mod26 x) = true ↔ Int.gcd x 26 = 1 := by
  have gcd : Nat.gcd (mod26 x).val 26 = Int.gcd x 26 :=
    calc Nat.gcd (mod26 x).val 26 = Int.gcd (resVal (mod26 x)) 26 := (Int.gcd_natCast_natCast _ 26).symm
      _ = Int.gcd x 26 := by rw [resVal_mod26, Int.gcd_emod]
  rw [isUnit26_iff, gcd]

theorem isUnit26_mod26_iff_isUnit (x : Int) : isUnit26 (mod26 x) = true ↔ IsUnit (x : ZMod 26) := by
  rw [isUnit26_mod26_iff_gcd, ← Int.isCoprime_iff_gcd_eq_one, isCoprime_comm]
  exact (ZMod.coe_int_isUnit_iff_isCoprime x 26).symm

/-- `inv26` inverts each of the twelve units (spec/41_modular_matrix.md R84). -/
theorem mul_inv26_emod : ∀ d : Residue, isUnit26 d = true → resVal d * resVal (inv26 d) % 26 = 1 := by decide

theorem cast_mul_inv26 {x : Int} (unit : isUnit26 (mod26 x) = true) :
    (x : ZMod 26) * (resVal (inv26 (mod26 x)) : ZMod 26) = 1 := by
  have inverse := (mul_emod_eq_one_iff _ _).mp (mul_inv26_emod (mod26 x) unit)
  rwa [cast_resVal_mod26] at inverse

/-- Settles O45: the values are computed; inverses in the ring `ZMod 26` are unique. -/
theorem unitsHaveOneInverse : Obligations.UnitsHaveOneInverse := by
  refine ⟨by decide, fun x => ⟨isUnit26_mod26_iff_gcd x, fun unit => ?_⟩, by decide⟩
  have inverse := cast_mul_inv26 unit
  refine ⟨(mul_emod_eq_one_iff _ _).mpr inverse, fun y hy => cast_resVal_injective ?_⟩
  exact inv_unique ((mul_emod_eq_one_iff x _).mp hy) inverse

/-! ### Matrices -/

/-- The `k` by `k` part of an integer matrix, modulo 26. -/
def modMatrix (k : Nat) (M : IntMatrix) : Matrix (Fin k) (Fin k) (ZMod 26) :=
  (Int.castRingHom (ZMod 26)).mapMatrix (toMatrix k M)

@[simp] theorem modMatrix_apply (k : Nat) (M : IntMatrix) (i j : Fin k) : modMatrix k M i j = (M i j : ZMod 26) := rfl

theorem modMatrix_eq_iff {k : Nat} {M N : IntMatrix} :
    modMatrix k M = modMatrix k N ↔ ∀ i < k, ∀ j < k, mod26 (M i j) = mod26 (N i j) := by
  simp only [← Matrix.ext_iff, modMatrix_apply, Fin.forall_iff, mod26_eq_iff_cast]

theorem cast_det (k : Nat) (M : IntMatrix) : (det k M : ZMod 26) = (modMatrix k M).det := by
  rw [det_eq_det_toMatrix]
  exact RingHom.map_det (Int.castRingHom (ZMod 26)) _

theorem modMatrix_adj (k : Nat) (M : IntMatrix) : modMatrix k (adj k M) = (modMatrix k M).adjugate := by
  rw [modMatrix, toMatrix_adj]
  exact RingHom.map_adjugate (Int.castRingHom (ZMod 26)) _

theorem modMatrix_mul (k : Nat) (M N : IntMatrix) :
    modMatrix k M * modMatrix k N = modMatrix k fun i j => sumTo k fun l => M i l * N l j := by
  rw [modMatrix, modMatrix, ← map_mul, toMatrix_mul]
  rfl

theorem modMatrix_identity (k : Nat) : modMatrix k (fun i j => if i = j then 1 else 0) = 1 := by
  rw [modMatrix, toMatrix_scalar, one_smul, map_one]

/-- The product is the identity modulo 26, entry by entry. -/
theorem modMatrix_mul_eq_one_iff {k : Nat} {M N : IntMatrix} : modMatrix k M * modMatrix k N = 1 ↔
    ∀ i < k, ∀ j < k, mod26 (sumTo k fun l => M i l * N l j) = if i = j then 1 else 0 := by
  rw [modMatrix_mul, ← modMatrix_identity, modMatrix_eq_iff]
  simp only [apply_ite mod26]
  rfl

/-- The inverse of R85 is the adjugate times the inverse of the determinant. -/
theorem modMatrix_inverseEntry (k : Nat) (M : IntMatrix) : modMatrix k (intMatrix (inverseEntry k M)) =
    (resVal (inv26 (mod26 (det k M))) : ZMod 26) • (modMatrix k M).adjugate := by
  ext i j
  rw [Matrix.smul_apply, ← modMatrix_adj, modMatrix_apply, intMatrix, inverseEntry, cast_resVal_mod26, Int.cast_mul]
  rfl

/-! ### Reducing early -/

/-- Settles O48: determinant and adjugate modulo 26 are those of the matrix modulo 26, and the inverse is made of
them. -/
theorem earlyReductionChangesNothing : Obligations.EarlyReductionChangesNothing := by
  intro k M N agree
  have same : modMatrix k M = modMatrix k N := modMatrix_eq_iff.mpr agree
  have sameDet : mod26 (det k M) = mod26 (det k N) := by
    rw [mod26_eq_iff_cast, cast_det, cast_det, same]
  refine ⟨sameDet, modMatrix_eq_iff.mp ?_, ?_⟩
  · rw [modMatrix_adj, modMatrix_adj, same]
  · have inverse : modMatrix k (intMatrix (inverseEntry k M)) = modMatrix k (intMatrix (inverseEntry k N)) := by
      rw [modMatrix_inverseEntry, modMatrix_inverseEntry, sameDet, same]
    simpa [intMatrix] using modMatrix_eq_iff.mp inverse

/-! ### The inverse -/

/-- Reducing the integers of a matrix of residues gives the residues back. -/
theorem modMatrix_intMatrix_eq_iff {k : Nat} {Q R : Nat → Nat → Residue} :
    modMatrix k (intMatrix Q) = modMatrix k (intMatrix R) ↔ ∀ i < k, ∀ j < k, Q i j = R i j := by
  simp only [modMatrix_eq_iff, intMatrix, mod26_resVal]

theorem inverseMod26_eq_some_iff {k : Nat} {M : IntMatrix} {R : Nat → Nat → Residue} :
    inverseMod26 k M = some R ↔ isInvertibleMod26 k M = true ∧ inverseEntry k M = R := by
  simp [inverseMod26]

theorem isInvertibleMod26_iff_isUnit_det {k : Nat} {M : IntMatrix} :
    isInvertibleMod26 k M = true ↔ IsUnit (modMatrix k M).det := by
  rw [isInvertibleMod26, isUnit26_mod26_iff_isUnit, cast_det]

/-- The matrix of R85 is an inverse whenever the determinant is a unit. -/
theorem modMatrix_mul_inverseEntry {k : Nat} {M : IntMatrix} (invertible : isInvertibleMod26 k M = true) :
    modMatrix k M * modMatrix k (intMatrix (inverseEntry k M)) = 1 := by
  rw [modMatrix_inverseEntry, Matrix.mul_smul, Matrix.mul_adjugate, smul_smul, mul_comm, ← cast_det,
    cast_mul_inv26 invertible, one_smul]

/-- A matrix with a right inverse modulo 26 is invertible, and that inverse is the one of R85. -/
theorem modMatrix_eq_inverseEntry_of_mul_eq_one {k : Nat} {M N : IntMatrix} (h : modMatrix k M * modMatrix k N = 1) :
    isInvertibleMod26 k M = true ∧ modMatrix k N = modMatrix k (intMatrix (inverseEntry k M)) := by
  have invertible := isInvertibleMod26_iff_isUnit_det.mpr (Matrix.isUnit_det_of_right_inverse h)
  exact ⟨invertible, left_inv_eq_right_inv (mul_eq_one_comm.mp h) (modMatrix_mul_inverseEntry invertible)⟩

/-- `isInvertibleMod26` is "some matrix of residues is an inverse" (spec/41_modular_matrix.md R85). -/
theorem isInvertibleMod26_iff_exists {k : Nat} {M : IntMatrix} : isInvertibleMod26 k M = true ↔
    ∃ R : Nat → Nat → Residue, ∀ i < k, ∀ j < k,
      mod26 (sumTo k fun l => M i l * resVal (R l j)) = if i = j then 1 else 0 := by
  constructor
  · intro invertible
    exact ⟨inverseEntry k M, modMatrix_mul_eq_one_iff.mp (modMatrix_mul_inverseEntry invertible)⟩
  · rintro ⟨R, hR⟩
    have right : modMatrix k M * modMatrix k (intMatrix R) = 1 := modMatrix_mul_eq_one_iff.mpr hR
    exact (modMatrix_eq_inverseEntry_of_mul_eq_one right).1

/-- Settles O49: `modMatrix_mul_inverseEntry`; a one-sided inverse of a matrix is its only inverse, on both sides. -/
theorem inverseIsTheOnlyOne : Obligations.InverseIsTheOnlyOne := by
  intro k M _
  refine ⟨fun R inverse i hi j hj => ?_, fun Q hQ => ?_⟩
  · obtain ⟨invertible, rfl⟩ := inverseMod26_eq_some_iff.mp inverse
    have right := modMatrix_mul_inverseEntry invertible
    exact ⟨modMatrix_mul_eq_one_iff.mp right i hi j hj,
      modMatrix_mul_eq_one_iff.mp (mul_eq_one_comm.mp right) i hi j hj⟩
  · have right : modMatrix k M * modMatrix k (intMatrix Q) = 1 := modMatrix_mul_eq_one_iff.mpr hQ
    obtain ⟨invertible, same⟩ := modMatrix_eq_inverseEntry_of_mul_eq_one right
    exact ⟨_, inverseMod26_eq_some_iff.mpr ⟨invertible, rfl⟩, modMatrix_intMatrix_eq_iff.mp same⟩

end Sys2Proof.Machine
end

section
/-! PROOF. The statements about `CHK` and `INV` (spec/41_modular_matrix.md R86, R87, R90 to R92). -/

namespace Sys2Proof

/-! ### The words -/

theorem op_toFields (i : Instr) : i.toFields.op = i.opcode := by cases i <;> rfl

/-- A command without operands has one word: every other word of its opcode is rejected (spec/30_encoding.md R55
case 2). -/
theorem decode_of_opField_of_ne {i : Instr} {w : CmdWord} (only : ∀ j : Instr, j.opcode = i.opcode → j = i)
    (assigned : assignedOpcode i.opcode = true) (op : opField w = i.opcode) (other : w ≠ encode i) :
    decode w = .error (.unusedFieldNotZero i.opcode) := by
  refine decode_eq_error_iff.mpr ⟨fun j decoded => other ?_, ?_⟩
  · obtain ⟨rfl, -⟩ := encode_of_decode decoded
    rw [Laws.opField_encode, op_toFields] at op
    rw [only j op]
  · rw [← op]
    exact (rejectWord_eq_unused_iff w).mpr (op ▸ assigned)

end Sys2Proof

namespace Sys2Proof.Machine

section
variable {i : Instr} (hi : i = .chk ∨ i = .inv)

include hi in
theorem eq_of_opcode_eq (j : Instr) (same : j.opcode = i.opcode) : j = i := by
  obtain rfl | rfl := hi
  · cases j with
    | chk => rfl
    | _ => cases same
  · cases j with
    | inv => rfl
    | _ => cases same

include hi in
/-- The words of `CHK` and `INV` are the only ones of their opcodes (spec/41_modular_matrix.md R90, R91). -/
theorem decode_matrixUnit_of_ne {w : CmdWord} (op : opField w = i.opcode) (other : w ≠ encode i) :
    decode w = .error (.unusedFieldNotZero i.opcode) := by
  refine decode_of_opField_of_ne (eq_of_opcode_eq hi) ?_ op other
  obtain rfl | rfl := hi <;> rfl

include hi in
/-- `CHK` and `INV` are refused in a session (spec/60_exceptions.md R146). -/
theorem exec_matrixUnit_refused {s : State} (session : s.mode ≠ .idle) :
    exec i s = .next { s with err := .illegalCommand, out := s.out ++ [.response 0x50000000] } := by
  have notAccepted : acceptedIn s.mode i = false := by
    obtain rfl | rfl := hi <;> exact beq_eq_false_iff_ne.mpr session
  have notRd : i.opcode ≠ rdOpcode := by
    obtain rfl | rfl := hi <;> decide
  rw [exec_refused (.inl notAccepted), refuse_of_ne notRd]

end

/-! ### What they write and answer -/

theorem isUnit26_eq_false_iff (d : Residue) : isUnit26 d = false ↔ Nat.gcd d.val 26 ≠ 1 := by
  rw [← Bool.not_eq_true, isUnit26_iff]

/-- What `CHK` and `INV` answer fits the data field (spec/30_encoding.md R54). -/
theorem detData_lt (s : State) : detData s < 65536 := by
  have unit := s.unit.toNat_lt
  have det := s.det.isLt
  unfold detData
  omega

/-- `CHK` and `INV` on an invertible key, field by field (spec/41_modular_matrix.md R86, R87). -/
theorem computeInverse_eq_of_unit {s : State} (unit : isUnit26 (keyDet s) = true) : computeInverse s = { s with
    det := keyDet s, detv := true, unit := true, dinv := inv26 (keyDet s), ki := Mat.fill s.ki s.kdim (keyInverse s),
    kiv := true } := by
  rw [computeInverse_of_unit s unit, storeInverse, computeDet, unit]
  rfl

/-- `INV` on another key, field by field (spec/41_modular_matrix.md R86, R87). -/
theorem computeInverse_eq_of_not_unit {s : State} (noUnit : isUnit26 (keyDet s) = false) : computeInverse s = { s with
    det := keyDet s, detv := true, unit := false, kiv := false } := by
  rw [computeInverse_of_not_unit s noUnit, computeDet, noUnit]

/-- Settles O18: `Effect.chk` from `IDLE`, `exec_matrixUnit_refused` in a session. -/
theorem chkResult : Obligations.ChkResult := by
  intro s d det
  obtain rfl : d = keyDet s := det
  refine ⟨fun idle => ⟨fun gcd => ?_, fun gcd => ?_⟩, exec_matrixUnit_refused (.inl rfl), rfl,
    fun w => decode_matrixUnit_of_ne (.inl rfl)⟩
  · have unit := (isUnit26_iff _).mpr gcd
    refine ((Effect.chk idle).of_eq ?_).exec_eq
    rw [succeed_of_lt (detData_lt _)]
    simp [computeDet, detData, unit]
  · have noUnit := (isUnit26_eq_false_iff _).mpr gcd
    refine ((Effect.chk idle).of_eq ?_).exec_eq
    rw [succeed_of_lt (detData_lt _)]
    simp [computeDet, detData, noUnit]

/-- Settles O19: `Effect.invStores` and `Effect.invFails` from `IDLE`, `exec_matrixUnit_refused` in a session. -/
theorem invResult : Obligations.InvResult := by
  intro s d det
  obtain rfl : d = keyDet s := det
  refine ⟨fun idle => ⟨fun gcd => ?_, fun gcd => ?_⟩, exec_matrixUnit_refused (.inr rfl), rfl,
    fun w => decode_matrixUnit_of_ne (.inr rfl)⟩
  · have unit := (isUnit26_iff _).mpr gcd
    refine ⟨Mat.fill s.ki s.kdim (keyInverse s), ((Effect.invStores idle unit).of_eq ?_).exec_eq,
      fun kdim i j => ?_⟩
    · rw [succeed_of_lt (by omega), computeInverse_eq_of_unit unit]
    · rw [Mat.get_fill]
      exact if_congr (by omega) rfl rfl
  · have noUnit := (isUnit26_eq_false_iff _).mpr gcd
    refine ((Effect.invFails idle noUnit).of_eq ?_).exec_eq
    rw [computeInverse_eq_of_not_unit noUnit]
    simp [raise, answer, respond, responseWord_notInvertible]

/-- Settles O27: the refusal and the three outcomes of `CHK` and `INV`, field by field. -/
theorem matrixUnitFrame : Obligations.MatrixUnitFrame := by
  intro i s t hi next
  have effect := exec_eq_next_iff.mp next
  cases effect with
  | refused _ _ => simp
  | chk _ => simp
  | invFails _ noUnit => simp [noUnit]
  | invStores _ unit => simp +contextual [unit, Mat.get_fill]
  | _ => simp at hi

/-! ### The inverse on the unit -/

/-- Settles O51: with `KIV` set, `DET`, `DINV` and the `KDIM` by `KDIM` part of `KI` hold what would be written. -/
theorem recomputationMayBeSkipped : Obligations.RecomputationMayBeSkipped := by
  intro s inv kiv
  obtain ⟨detv, unit, dinv⟩ := inv.kivFlags kiv
  obtain ⟨current, unitIff⟩ := inv.detCurrent detv
  have det : keyDet s = s.det := current.symm
  have isUnit : isUnit26 (keyDet s) = true := by
    rw [det, isUnit26_iff]
    exact unitIff.mp unit
  have ki : Mat.fill s.ki s.kdim (keyInverse s) = s.ki := by
    apply Mat.ext
    intro i _ j _
    rw [Mat.get_fill]
    split
    · next below =>
      obtain ⟨hi, hj, -⟩ := below
      rw [inv.kiCurrent kiv i hi j hj, dinv, ← det]
      rfl
    · rfl
  rw [computeInverse_eq_of_unit isUnit, ki, det, ← dinv]
  cases s
  cases detv
  cases unit
  cases kiv
  rfl

/-- With an invertible key, `KI` holds the inverse of R85 below `KDIM` (spec/41_modular_matrix.md R86). -/
theorem get_ki_computeInverse {s : State} (unit : isUnit26 (keyDet s) = true) (kdim : s.kdim ≤ 16) {i j : Nat}
    (hi : i < s.kdim) (hj : j < s.kdim) :
    Mat.get (computeInverse s).ki i j = inverseEntry s.kdim (keyMatrix s) i j := by
  rw [computeInverse_ki, if_pos unit, Mat.get_fill, if_pos (by omega)]
  rfl

/-- Settles O50: `UNIT` is `isInvertibleMod26` of the key, and `KI` after an `INV` that succeeds is the inverse of
R85. -/
theorem invertibilityGate : Obligations.InvertibilityGate := by
  intro s idle _ kdim
  refine ⟨⟨_, (Effect.chk idle).exec_eq, isInvertibleMod26_iff_exists⟩, ?_⟩
  cases unit : isUnit26 (keyDet s) with
  | false => exact ⟨_, (Effect.invFails idle unit).exec_eq, nofun⟩
  | true =>
    refine ⟨_, (Effect.invStores idle unit).exec_eq, fun _ i hi j hj => ?_⟩
    have right : modMatrix s.kdim (keyMatrix s) * modMatrix s.kdim (intMatrix (Mat.get (computeInverse s).ki)) = 1 := by
      rw [modMatrix_intMatrix_eq_iff.mpr fun i hi j hj => get_ki_computeInverse unit kdim hi hj]
      exact modMatrix_mul_inverseEntry unit
    exact ⟨modMatrix_mul_eq_one_iff.mp right i hi j hj,
      modMatrix_mul_eq_one_iff.mp (mul_eq_one_comm.mp right) i hi j hj⟩

end Sys2Proof.Machine
end

section
/-! PROOF. The statements about `ENCB`, `DECB`, `PUT` and `END` one by one (spec/42_hill_engine.md R100 to R102, R110
to R113): what they write and answer, what they leave unchanged, and the transitions of `MODE`. -/

namespace Sys2Proof.Machine

/-! ### The codec -/

/-- A letter has its distance from the letter a as residue (spec/42_hill_engine.md R101). -/
theorem toResidue_of_letter {c : Nat} (low : 0x61 ≤ c) (high : c ≤ 0x7A) :
    toResidue c = some (Fin.ofNat 26 (c - 0x61)) :=
  if_neg (by simp only [letterA, letterZ]; omega)

/-- The distance from the letter a as an integer (spec/00_scope.md R5). -/
theorem toResidue_eq_mod26 {c : Nat} (low : 0x61 ≤ c) (high : c ≤ 0x7A) :
    toResidue c = some (mod26 ((c : Int) - 0x61)) := by
  rw [toResidue_of_letter low high]
  congr 1
  apply resVal_inj
  rw [resVal_mod26]
  simp only [resVal, Fin.val_ofNat]
  omega

/-- Any other code has no residue (spec/42_hill_engine.md R101). -/
theorem toResidue_of_not_letter {c : Nat} (noLetter : c < 0x61 ∨ 0x7A < c) : toResidue c = none := if_pos noLetter

theorem toNat_toSymbol (r : Residue) : (toSymbol r).toNat = 0x61 + r.val := by
  simp only [toSymbol, letterA, BitVec.toNat_ofNat]
  omega

/-- The residue of the character code of a residue. -/
theorem toResidue_letter (r : Residue) : toResidue (0x61 + r.val) = some r := by
  rw [toResidue_of_letter (by omega) (by omega), Nat.add_sub_cancel_left, Fin.ofNat_val_eq_self]

/-- Settles O52: `toResidue_of_letter` and `toResidue_of_not_letter`; a code is its distance from the letter a, added
to that letter. -/
theorem codecRoundTrip : Obligations.CodecRoundTrip := by
  refine ⟨fun c low high => ?_, fun c => toResidue_of_not_letter, fun r => ?_⟩
  · have value : (Fin.ofNat 26 (c - 0x61)).val = c - 0x61 := Nat.mod_eq_of_lt (by omega)
    exact ⟨_, toResidue_of_letter low high, value, by rw [toNat_toSymbol, value, Nat.add_sub_cancel' low]⟩
  · rw [toNat_toSymbol, toResidue_letter]

/-! ### Answers, field by field -/

section
variable {s t : State} {i : Instr}

/-- A command that its mode does not accept changes nothing but `ERR` (spec/60_exceptions.md R146, R147). -/
theorem Effect.of_not_accepted (notAccepted : acceptedIn s.mode i = false) :
    Effect s i { s with err := .illegalCommand, out := s.out ++ [.response 0x50000000] } := by
  have notRd : i.opcode ≠ rdOpcode := by
    cases i with
    | rd => simp [acceptedIn] at notAccepted
    | _ => simp [Instr.opcode, rdOpcode]
  exact .of_eq (.refused i (.inl notAccepted)) (refuse_of_ne notRd s)

theorem raise_notInvertible (s : State) :
    raise .notInvertible s = { s with err := .notInvertible, out := s.out ++ [.response 0x20000000] } := by
  simp [raise, answer, respond, responseWord_notInvertible]

theorem raise_dimensionMismatch (s : State) :
    raise .dimensionMismatch s = { s with err := .dimensionMismatch, out := s.out ++ [.response 0x30000000] } := by
  simp [raise, answer, respond, responseWord_dimensionMismatch]

theorem raiseInSession_invalidSymbol (s : State) : raiseInSession .invalidSymbol s =
    { s with mode := .idle, cnt := 0, err := .invalidSymbol, out := s.out ++ [.response 0x10000000] } := by
  simp [raiseInSession, raise, answer, respond, responseWord_invalidSymbol]

theorem raiseInSession_dimensionMismatch (s : State) : raiseInSession .dimensionMismatch s =
    { s with mode := .idle, cnt := 0, err := .dimensionMismatch, out := s.out ++ [.response 0x30000000] } := by
  rw [raiseInSession, raise_dimensionMismatch]

/-- A block sent in `ENC` and its success answered, written out (spec/42_hill_engine.md R105, R107). -/
theorem succeed_flushBlock_of_enc (kdim : s.kdim ≤ 16) (enc : s.mode = .enc) : succeed s.kdim (flushBlock s) =
    { s with cnt := 0, err := .success, out := s.out ++ ((List.range s.kdim).map fun i => .symbol (BitVec.ofNat 8
      (0x61 + (mod26 (sumTo s.kdim (fun j => resVal (Mat.get s.km i j) * resVal (Vec.get s.ib j)) +
        resVal (Vec.get s.sv i))).val))) ++ [.response (BitVec.ofNat 32 s.kdim)] } := by
  rw [succeed_of_lt (by omega), flushBlock_out, blockOut, if_pos enc, encOut, encblock, List.map_map]
  rfl

/-- A block sent in `DEC` and its success answered, written out (spec/42_hill_engine.md R106, R107). -/
theorem succeed_flushBlock_of_dec (kdim : s.kdim ≤ 16) (dec : s.mode = .dec) : succeed s.kdim (flushBlock s) =
    { s with cnt := 0, err := .success, out := s.out ++ ((List.range s.kdim).map fun i => .symbol (BitVec.ofNat 8
      (0x61 + (mod26 (sumTo s.kdim (fun j => resVal (Mat.get s.ki i j) * resVal (Vec.get s.ib j)) -
        resVal (Vec.get s.ln i))).val))) ++ [.response (BitVec.ofNat 32 s.kdim)] } := by
  rw [succeed_of_lt (by omega), flushBlock_out, blockOut, if_neg (by simp [dec]), decOut, decblock, List.map_map]
  rfl

end

/-! ### What they write and answer -/

/-- Settles O20: `Effect.encbOpens` and `Effect.encbMismatch` from `IDLE`, the refusal in a session. -/
theorem encbResult : Obligations.EncbResult := by
  intro s kdim
  refine ⟨fun idle dims => ?_, fun idle dims => ?_, fun session => ?_, by decide⟩
  · exact ((Effect.encbOpens idle dims).of_eq (succeed_of_lt (by omega) _)).exec_eq
  · exact ((Effect.encbMismatch idle dims).of_eq (raise_dimensionMismatch s)).exec_eq
  · exact (Effect.of_not_accepted (i := .encb) (by simp [acceptedIn, session])).exec_eq

/-- Settles O21: `Effect.decbFails`, `Effect.decbMismatch` and `Effect.decbOpens` from `IDLE`, the refusal in a
session. -/
theorem decbResult : Obligations.DecbResult := by
  intro s d kdim det
  obtain rfl : d = keyDet s := det
  refine ⟨fun idle => ⟨fun gcd => ?_, fun gcd => ?_⟩, fun session => ?_, by decide⟩
  · have noUnit := (isUnit26_eq_false_iff _).mpr gcd
    refine ((Effect.decbFails idle noUnit).of_eq ?_).exec_eq
    rw [raise_notInvertible, computeInverse_eq_of_not_unit noUnit]
  · have unit := (isUnit26_iff _).mpr gcd
    refine ⟨Mat.fill s.ki s.kdim (keyInverse s), fun i j => ?_, fun dims => ?_,
      fun dims => ⟨(storeShift (computeInverse s)).ln, ?_, fun i => ?_⟩⟩
    · rw [Mat.get_fill]
      exact if_congr (by omega) rfl rfl
    · refine ((Effect.decbMismatch idle unit dims).of_eq ?_).exec_eq
      rw [raise_dimensionMismatch, computeInverse_eq_of_unit unit]
    · refine ((Effect.decbOpens idle unit dims).of_eq ?_).exec_eq
      rw [succeed_of_lt (by omega), computeInverse_eq_of_unit unit]
      rfl
    · rw [computeInverse_eq_of_unit unit, storeShift_ln, Vec.get_fill]
      exact if_congr (by simp only; omega) rfl rfl
  · exact (Effect.of_not_accepted (i := .decb) (by simp [acceptedIn, session])).exec_eq

/-- Settles O22: the refusal outside a session, `Effect.putBad` for a code that is no letter, `Effect.putTakes` and
`Effect.putFlushes` for a letter. -/
theorem putResult : Obligations.PutResult := by
  intro c s cnt
  refine ⟨fun idle => ?_, fun session noLetter => ?_, fun session low high => ?_, fun fits => ?_⟩
  · exact (Effect.of_not_accepted (i := .put c) (by simp [acceptedIn, idle])).exec_eq
  · exact ((Effect.putBad c session (toResidue_of_not_letter noLetter)).of_eq
      (raiseInSession_invalidSymbol s)).exec_eq
  · have letter := toResidue_eq_mod26 low high
    have fits : s.cnt + 1 = s.kdim → s.kdim ≤ 16 := by omega
    refine ⟨(takeLetter (mod26 ((c : Int) - 0x61)) s).ib, fun i => ?_, fun notFull => ?_, fun full enc => ?_,
      fun full dec => ?_⟩
    · rw [takeLetter_ib, Vec.get_set]
      exact if_congr (by omega) rfl rfl
    · exact ((Effect.putTakes c _ session letter notFull).of_eq (succeed_of_lt (by decide) _)).exec_eq
    · exact ((Effect.putFlushes c _ session letter full).of_eq
        (succeed_flushBlock_of_enc (s := takeLetter _ s) (fits full) enc)).exec_eq
    · exact ((Effect.putFlushes c _ session letter full).of_eq
        (succeed_flushBlock_of_dec (s := takeLetter _ s) (fits full) dec)).exec_eq
  · obtain ⟨-, -, word⟩ := encodedWordsAreTheTablesSums.1 c fits
    exact decode_of_encode_eq word (decide_eq_true fits)

/-- Settles O23: the refusal outside a session, `Effect.endCloses` on a whole number of blocks, `Effect.endFlushes` and
`Effect.endMismatch` on a partial block. -/
theorem endResult : Obligations.EndResult := by
  intro s kdim
  refine ⟨fun idle => ?_, fun session empty => ?_, fun enc partBlock => ⟨(padBlock s).ib, fun i => ?_, ?_⟩,
    fun dec partBlock => ?_, by decide⟩
  · exact (Effect.of_not_accepted (i := .endText) (by simp [acceptedIn, idle])).exec_eq
  · exact ((Effect.endCloses session empty).of_eq (succeed_of_lt (by decide) _)).exec_eq
  · rw [padBlock_ib, Vec.get_fill]
    exact if_congr (by omega) rfl rfl
  · exact ((Effect.endFlushes enc partBlock).of_eq (congrArg (fun t : State => { t with mode := .idle })
      (succeed_flushBlock_of_enc (s := padBlock s) kdim enc))).exec_eq
  · exact ((Effect.endMismatch dec partBlock).of_eq (raiseInSession_dimensionMismatch s)).exec_eq

/-! ### The frame -/

theorem Vec.get_fill_of_not_mem (v : Vec) {lo hi i : Nat} (f : Nat → Residue) (outside : i < lo ∨ hi ≤ i) :
    Vec.get (Vec.fill v lo hi f) i = Vec.get v i := by
  rw [Vec.get_fill, if_neg (by omega)]

theorem Mat.get_fill_of_not_mem (m : Mat) {k i j : Nat} (f : Nat → Nat → Residue) (outside : ¬(i < k ∧ j < k)) :
    Mat.get (Mat.fill m k f) i j = Mat.get m i j := by
  rw [Mat.get_fill, if_neg (by omega)]

/-- Settles O28: a refusal leaves everything but `ERR` and the output; each outcome of the four commands names what it
writes. -/
theorem sessionFrame : Obligations.SessionFrame := by
  intro i s t hi next
  have effect := exec_eq_next_iff.mp next
  cases effect with
  | refused _ _ => simp
  | encbMismatch | encbOpens | putBad | endMismatch | endCloses => simp
  | decbFails _ noUnit => simp [noUnit]
  | decbMismatch _ unit _ => simp +contextual [unit, Mat.get_fill_of_not_mem]
  | decbOpens _ unit _ => simp +contextual [unit, Mat.get_fill_of_not_mem, Vec.get_fill_of_not_mem]
  | putFlushes | putTakes => simp +contextual [Vec.get_set_of_ne]
  | endFlushes => simp +contextual [Vec.get_fill_of_not_mem]
  | _ => simp at hi

/-! ### The mode -/

section
variable {s t : State} {i : Instr}

/-- From `IDLE` only `ENCB` and `DECB` open a session (spec/42_hill_engine.md R100). -/
theorem Effect.mode_of_idle (effect : Effect s i t) (idle : s.mode = .idle) : t.mode =
    if i = .encb ∧ s.ldim = s.kdim then .enc
    else if i = .decb ∧ isUnit26 (keyDet s) = true ∧ s.ldim = s.kdim then .dec else .idle := by
  cases effect with
  | refused _ bad =>
    have notEncb : i ≠ .encb := by rintro rfl; simp [acceptedIn, operandsLegal, idle] at bad
    have notDecb : i ≠ .decb := by rintro rfl; simp [acceptedIn, operandsLegal, idle] at bad
    simp [idle, notEncb, notDecb]
  | putBad | putFlushes | putTakes | endCloses => exact absurd idle ‹_›
  | endFlushes enc _ => simp [enc] at idle
  | endMismatch dec _ => simp [dec] at idle
  | encbMismatch _ dims | encbOpens _ dims => simp [idle, dims]
  | decbFails _ unit => simp [idle, unit]
  | decbMismatch _ unit dims | decbOpens _ unit dims => simp [idle, unit, dims]
  | _ => simp [idle]

/-- In a session a letter keeps the mode, and a code that is no letter ends the session (R100). -/
theorem Effect.mode_of_put {c : Nat} (effect : Effect s (.put c) t) (session : s.mode ≠ .idle) :
    t.mode = if (toResidue c).isSome then s.mode else .idle := by
  cases effect with
  | refused _ bad => simp [acceptedIn, operandsLegal, session] at bad
  | putBad _ _ noLetter => simp [noLetter]
  | putFlushes _ r _ letter _ | putTakes _ r _ letter _ => simp [letter]

/-- `END` ends a session, and leaves `IDLE` when there is none (R100). -/
theorem Effect.mode_of_end (effect : Effect s .endText t) : t.mode = .idle := by
  cases effect with
  | refused _ bad => simpa [acceptedIn, operandsLegal] using bad
  | endFlushes | endMismatch | endCloses => rfl

/-- In a session no other command changes the mode (R100). -/
theorem Effect.mode_of_session (effect : Effect s i t) (session : s.mode ≠ .idle) (notPut : ∀ c, i ≠ .put c)
    (notEnd : i ≠ .endText) : t.mode = s.mode := by
  cases effect with
  | refused _ _ => exact refuse_mode _ s
  | rd => rfl
  | putBad | putFlushes | putTakes => exact absurd rfl (notPut _)
  | endFlushes | endMismatch | endCloses => exact absurd rfl notEnd
  | _ => exact absurd ‹_› session

end

/-- Settles O32: `Effect.mode_of_idle` from `IDLE`, the three lemmas after it in a session; a refusal keeps the mode,
reset leaves `IDLE`. -/
theorem modeTransitions : Obligations.ModeTransitions := by
  refine ⟨fun s i => ?_, fun s w rest move undecodable => ?_, fun s rest move => ?_⟩
  · obtain ⟨t, effect⟩ := exists_effect s i
    refine ⟨t, effect.exec_eq, fun idle hi => ?_, fun idle hi => ?_, fun idle notEncb notDecb => ?_,
      fun session c hi => ?_, fun session hi => ?_, fun session notPut notEnd => ?_⟩
    · simp [effect.mode_of_idle idle, hi]
    · rw [effect.mode_of_idle idle, if_neg (by simp [hi])]
      exact if_congr (by simp [hi, keyDet, isUnit26_iff]) rfl rfl
    · simp [effect.mode_of_idle idle, notEncb, notDecb]
    · subst hi
      rw [effect.mode_of_put session]
      exact if_congr (toResidue_isSome c) rfl rfl
    · subst hi
      exact effect.mode_of_end
    · exact effect.mode_of_session session notPut notEnd
  · exact ⟨_, step_of_undecodable move undecodable, refuse_mode _ { s with cmd := rest }⟩
  · exact ⟨_, step_of_rst move, rfl⟩

end Sys2Proof.Machine
end

section
/-! PROOF. The functions of spec/42_hill_engine.md R103: blocks and padding of texts, and decryption as the inverse of
encryption (R122). -/

namespace Sys2Proof.Machine

/-! ### Blocks and padding -/

section
variable {k : Nat}

theorem length_of_mem_blocks {t v : List Residue} (mem : v ∈ blocks k t) : v.length = k := by
  obtain ⟨b, hb, rfl⟩ := List.mem_map.mp mem
  have fits : (b + 1) * k ≤ t.length := (Nat.mul_le_mul_right k (List.mem_range.mp hb)).trans (Nat.div_mul_le_self _ k)
  rw [Nat.succ_mul] at fits
  rw [List.length_take, List.length_drop, Nat.min_eq_left (by omega)]

theorem blocks_of_length_lt {t : List Residue} (short : t.length < k) : blocks k t = [] := by
  rw [blocks, Nat.div_eq_of_lt short]
  rfl

/-- The first `k` letters are the first block. -/
theorem blocks_append (pos : 0 < k) {v : List Residue} (hv : v.length = k) (t : List Residue) :
    blocks k (v ++ t) = v :: blocks k t := by
  have tail : ∀ b, (v ++ t).drop ((b + 1) * k) = t.drop (b * k) := fun b => by
    rw [Nat.succ_mul, Nat.add_comm, ← List.drop_drop, ← hv, List.drop_left]
  rw [blocks, List.length_append, hv, Nat.add_div_left _ pos, List.range_succ_eq_map, List.map_cons, List.map_map]
  congr 1
  · rw [Nat.zero_mul, List.drop_zero, List.take_left' hv]
  · exact List.map_congr_left fun b _ => congrArg (List.take k) (tail b)

/-- Whole blocks, one after the other, are cut into these blocks. -/
theorem blocks_flatten_append (pos : 0 < k) {bs : List (List Residue)} (whole : ∀ b ∈ bs, b.length = k)
    (t : List Residue) : blocks k (bs.flatten ++ t) = bs ++ blocks k t := by
  induction bs with
  | nil => rfl
  | cons b bs ih =>
    obtain ⟨hb, hbs⟩ := List.forall_mem_cons.mp whole
    rw [List.flatten_cons, List.append_assoc, blocks_append pos hb, ih hbs, List.cons_append]

theorem blocks_flatten (pos : 0 < k) {bs : List (List Residue)} (whole : ∀ b ∈ bs, b.length = k) :
    blocks k bs.flatten = bs := by
  simpa [blocks_of_length_lt (t := []) pos] using blocks_flatten_append pos whole []

theorem length_flatten_of_whole {bs : List (List Residue)} (whole : ∀ b ∈ bs, b.length = k) :
    bs.flatten.length = k * bs.length := by
  rw [List.length_flatten, List.map_congr_left whole, List.map_const', List.sum_replicate_nat, Nat.mul_comm]

/-- A text of a whole number of blocks is its blocks, one after the other. -/
theorem flatten_blocks (pos : 0 < k) {t : List Residue} {n : Nat} (length : t.length = n * k) :
    (blocks k t).flatten = t := by
  induction n generalizing t with
  | zero =>
    rw [Nat.zero_mul] at length
    rw [blocks_of_length_lt (by omega), List.length_eq_zero_iff.mp length, List.flatten_nil]
  | succ n ih =>
    rw [Nat.succ_mul] at length
    have rest := ih (t := t.drop k) (by rw [List.length_drop]; omega)
    rw [← List.take_append_drop k t, blocks_append pos (by rw [List.length_take]; omega), List.flatten_cons, rest]

/-- A padded text has the fewest whole blocks that hold the text. -/
theorem length_pad (pos : 0 < k) (t : List Residue) : (pad k t).length = k * ((t.length + k - 1) / k) := by
  have parts := Nat.div_add_mod t.length k
  have below := Nat.mod_lt t.length pos
  have count : ∀ n, t.length ≤ k * n → k * n < t.length + k → (t.length + k - 1) / k = n := fun n enough fewest =>
    Nat.div_eq_of_lt_le (by rw [Nat.mul_comm]; omega) (by rw [Nat.mul_comm, Nat.mul_succ]; omega)
  rw [pad, List.length_append, List.length_replicate, padLength]
  split
  · next whole =>
    rw [count (t.length / k) (by omega) (by omega)]
    omega
  · next partBlock =>
    have enough : k * (t.length / k + 1) = t.length + (k - t.length % k) := by rw [Nat.mul_succ]; omega
    rw [count (t.length / k + 1) (by omega) (by omega), enough]

/-- Padding looks at what the whole blocks leave. -/
theorem pad_flatten_append {bs : List (List Residue)} (whole : ∀ b ∈ bs, b.length = k) (t : List Residue) :
    pad k (bs.flatten ++ t) = bs.flatten ++ pad k t := by
  have sameLength : padLength k (bs.flatten ++ t).length = padLength k t.length := by
    rw [List.length_append, length_flatten_of_whole whole, padLength, Nat.mul_add_mod, padLength]
  rw [pad, sameLength, List.append_assoc, pad]

theorem pad_nil (k : Nat) : pad k [] = [] := by simp [pad, padLength]

theorem pad_of_length_lt {t : List Residue} (nonempty : 0 < t.length) (short : t.length < k) :
    pad k t = t ++ List.replicate (k - t.length) padResidue := by
  rw [pad, padLength, Nat.mod_eq_of_lt short, if_neg nonempty.ne']

/-- The column of the first `n` values of a function. -/
theorem column_map_range (f : Nat → Residue) {n i : Nat} (h : i < n) : column ((List.range n).map f) i = f i := by
  simp [column, h]

theorem map_range_column {v : List Residue} (hv : v.length = k) : (List.range k).map (column v) = v := by
  apply List.ext_getElem
  · simp [hv]
  · intro i _ hi
    simp [column, hi]

end

/-! ### One block -/

section
variable {k : Nat}

/-- Entry `i` of a block, with the shift reduced or not (spec/90_conflicts.md C2). -/
theorem mod26_sub_transformedShift (Ki : Nat → Nat → Residue) (L : Nat → Residue) (x : Int) (i : Nat) :
    mod26 (x - resVal (transformedShift k Ki L i)) = mod26 (x - sumTo k fun j => resVal (Ki i j) * resVal (L j)) := by
  rw [mod26_eq_iff_cast, transformedShift, Int.cast_sub, cast_resVal_mod26, Int.cast_sub]

theorem sumTo_mul_sub (k : Nat) (f g h : Nat → Int) :
    ((sumTo k fun j => f j * g j) - sumTo k fun j => f j * h j) = sumTo k fun j => f j * (g j - h j) := by
  simp only [sumTo_eq_sum, mul_sub, Finset.sum_sub_distrib]

/-- A decrypted block is the reduced product of the inverse with the block minus the shift. -/
theorem decblock_transformedShift (k : Nat) (Ki : Nat → Nat → Residue) (L c : Nat → Residue) :
    decblock k Ki (transformedShift k Ki L) c = (List.range k).map fun i =>
      mod26 (sumTo k fun j => resVal (Ki i j) * (resVal (c j) - resVal (L j))) :=
  List.map_congr_left fun i _ => by rw [mod26_sub_transformedShift, sumTo_mul_sub]

/-- Settles O53: `mod26_sub_transformedShift` entry by entry, and `decblock_transformedShift`. -/
theorem reducingTheShiftEarlyChangesNoBlock : Obligations.ReducingTheShiftEarlyChangesNoBlock := fun k Ki L c =>
  ⟨List.map_congr_left fun i _ => mod26_sub_transformedShift Ki L _ i, decblock_transformedShift k Ki L c⟩

/-- The first `k` entries of a column of integers, modulo 26. -/
def modColumn (k : Nat) (x : Nat → Int) : Fin k → ZMod 26 := fun i => (x i : ZMod 26)

theorem modMatrix_mulVec (M : IntMatrix) (x : Nat → Int) :
    (modMatrix k M).mulVec (modColumn k x) = modColumn k fun i => sumTo k fun j => M i j * x j := by
  ext i
  rw [Matrix.mulVec, modColumn, sumTo_eq_sum_fin, Int.cast_sum]
  exact Finset.sum_congr rfl fun j _ => (Int.cast_mul _ _).symm

theorem modColumn_eq_iff {x y : Nat → Int} : modColumn k x = modColumn k y ↔ ∀ i < k, mod26 (x i) = mod26 (y i) := by
  simp only [funext_iff, modColumn, Fin.forall_iff, mod26_eq_iff_cast]

/-- An encrypted block minus the shift is the product of the key with the block, modulo 26. -/
theorem modColumn_encblock_sub (K : Nat → Nat → Residue) (L v : Nat → Residue) :
    modColumn k (fun j => resVal (column (encblock k K L v) j) - resVal (L j)) =
      (modMatrix k (intMatrix K)).mulVec (modColumn k fun j => resVal (v j)) := by
  rw [modMatrix_mulVec, modColumn_eq_iff]
  intro i hi
  rw [encblock, column_map_range _ hi, mod26_eq_iff_cast, Int.cast_sub, cast_resVal_mod26, Int.cast_add,
    add_sub_cancel_right]
  rfl

/-- Decrypting an encrypted block gives the block back: the inverse of the key undoes the product (R122). -/
theorem decblock_encblock {K : Nat → Nat → Residue} (invertible : isInvertibleMod26 k (intMatrix K) = true)
    (L v : Nat → Residue) :
    decblock k (inverseEntry k (intMatrix K)) (transformedShift k (inverseEntry k (intMatrix K)) L)
      (column (encblock k K L v)) = (List.range k).map v := by
  have inverse : modMatrix k (intMatrix (inverseEntry k (intMatrix K))) * modMatrix k (intMatrix K) = 1 :=
    mul_eq_one_comm.mp (modMatrix_mul_inverseEntry invertible)
  have undone := modMatrix_mulVec (k := k) (intMatrix (inverseEntry k (intMatrix K)))
    fun j => resVal (column (encblock k K L v) j) - resVal (L j)
  rw [modColumn_encblock_sub, Matrix.mulVec_mulVec, inverse, Matrix.one_mulVec, modColumn_eq_iff] at undone
  rw [decblock_transformedShift]
  refine List.map_congr_left fun i hi => ?_
  rw [← mod26_resVal (v i)]
  exact (undone i (List.mem_range.mp hi)).symm

end

/-! ### Texts -/

section
variable {k : Nat} {K : Nat → Nat → Residue}

/-- All that `decrypt` does with a key that has no inverse. -/
theorem decrypt_of_not_invertible (singular : isInvertibleMod26 k (intMatrix K) = false) (L t : List Residue) :
    decrypt k K L t = .error .notInvertible := by
  simp [decrypt, inverseMod26, singular]

/-- All that `decrypt` does with an invertible key. -/
theorem decrypt_of_invertible (invertible : isInvertibleMod26 k (intMatrix K) = true) (L t : List Residue) :
    decrypt k K L t =
      if L.length ≠ k then .error .dimensionMismatch
      else if t.length % k ≠ 0 then .error .dimensionMismatch
      else .ok ((blocks k t).flatMap fun c => decblock k (inverseEntry k (intMatrix K))
        (transformedShift k (inverseEntry k (intMatrix K)) (column L)) (column c)) := by
  simp [decrypt, inverseMod26, invertible]

/-- An encryption has the blocks of the padded text, each encrypted. -/
theorem blocks_encrypted (pos : 0 < k) (L t : List Residue) :
    blocks k ((blocks k t).flatMap fun v => encblock k K (column L) (column v)) =
      (blocks k t).map fun v => encblock k K (column L) (column v) := by
  rw [List.flatMap_def]
  exact blocks_flatten pos (List.forall_mem_map.mpr fun v _ => encblock_length k K _ _)

theorem length_encrypted (L t : List Residue) :
    ((blocks k t).flatMap fun v => encblock k K (column L) (column v)).length = k * (blocks k t).length := by
  rw [List.flatMap_def, length_flatten_of_whole (List.forall_mem_map.mpr fun v _ => encblock_length k K _ _),
    List.length_map]

/-- Decrypting an encryption gives the padded text, block by block (R122). -/
theorem decrypt_encrypted (pos : 0 < k) (invertible : isInvertibleMod26 k (intMatrix K) = true) {L : List Residue}
    (dims : L.length = k) (t : List Residue) :
    decrypt k K L ((blocks k (pad k t)).flatMap fun v => encblock k K (column L) (column v)) = .ok (pad k t) := by
  have whole : (pad k t).length = (t.length + k - 1) / k * k := by rw [length_pad pos, Nat.mul_comm]
  rw [decrypt_of_invertible invertible, if_neg (not_not.mpr dims),
    if_neg (by rw [length_encrypted, Nat.mul_mod_right]; exact not_not.mpr rfl), blocks_encrypted pos, List.flatMap_map]
  congr 1
  calc (blocks k (pad k t)).flatMap _ = (blocks k (pad k t)).flatMap id := by
        refine List.flatMap_congr fun v mem => ?_
        rw [decblock_encblock invertible, map_range_column (length_of_mem_blocks mem), id]
    _ = pad k t := by rw [List.flatMap_id, flatten_blocks pos whole]

end

/-- Settles O54: `decrypt_encrypted`; with another dimension of the shift both functions stop at that test. -/
theorem decryptUndoesEncrypt : Obligations.DecryptUndoesEncrypt := by
  intro k K L t pos invertible
  refine ⟨fun dims => ⟨_, encrypt_of_length K dims t, decrypt_encrypted pos invertible dims t⟩,
    fun dims => ⟨encrypt_of_ne K dims t, fun c => ?_⟩⟩
  rw [decrypt_of_invertible invertible, if_pos dims]

end Sys2Proof.Machine
end

section
/-! PROOF. Whole sessions (spec/42_hill_engine.md R120 to R122): runs over the expansions `ENCRYPT` and `DECRYPT`. What
a list of letters does to an open session is said once, in `Took`. -/

namespace Sys2Proof.Machine

/-! ### Runs -/

section
variable {s t : State}

theorem run_succ (next : step s = .next t) (n : Nat) :
    Host.Core.run Sys2Proof.core (n + 1) s = Host.Core.run Sys2Proof.core n t := by
  have next' : Sys2Proof.core.step s = .next t := next
  simp only [Host.Core.run, next']

/-- A run begins with the first of the queued commands. -/
theorem run_cons {i : Instr} {is : List Instr} {rest : List HostMove} (move : s.cmd = asMoves (i :: is) ++ rest)
    (wf : i.wf = true) (effect : Effect { s with cmd := asMoves is ++ rest } i t) (n : Nat) :
    Host.Core.run Sys2Proof.core (n + 1) s = Host.Core.run Sys2Proof.core n t :=
  run_succ ((step_of_decode move (decode_encode wf)).trans effect.exec_eq) n

theorem inv_run {n : Nat} (run : Host.Core.run Sys2Proof.core n s = .next t) (inv : Inv s) : Inv t := by
  induction n generalizing s with
  | zero =>
    cases run
    exact inv
  | succ n ih =>
    obtain ⟨u, effect⟩ := exists_stepEffect s
    rw [run_succ effect.step_eq] at run
    exact ih run (effect.inv inv)

/-- In `IDLE` the letters and the end of a text are refused one by one (spec/42_hill_engine.md R120). -/
theorem run_refused_text {codes : List Nat} {rest : List HostMove} (idle : s.mode = .idle)
    (fits : ∀ c ∈ codes, c < 65536) (move : s.cmd = asMoves (expandText codes ++ [.endText]) ++ rest) :
    Host.Core.run Sys2Proof.core (codes.length + 1) s = .next { s with
      cmd := rest, err := .illegalCommand,
      out := s.out ++ List.replicate (codes.length + 1) (.response 0x50000000) } := by
  induction codes generalizing s with
  | nil =>
    have notAccepted : acceptedIn s.mode .endText = false := by simp [acceptedIn, idle]
    exact run_cons move rfl (.of_not_accepted notAccepted) 0
  | cons c codes ih =>
    obtain ⟨hc, hcodes⟩ := List.forall_mem_cons.mp fits
    have notAccepted : acceptedIn s.mode (.put c) = false := by simp [acceptedIn, idle]
    rw [List.length_cons, run_cons move (decide_eq_true hc) (.of_not_accepted notAccepted)]
    refine (ih (s := { s with err := .illegalCommand, cmd := _, out := _ }) idle hcodes rfl).trans ?_
    simp [List.replicate_succ]

end

/-! ### What goes out -/

@[simp] theorem symbolsOf_responses (ws : List RspWord) : symbolsOf (ws.map .response) = [] := by
  simp [symbolsOf, List.filterMap_map]

@[simp] theorem responsesOf_responses (ws : List RspWord) : responsesOf (ws.map .response) = ws := by
  simp [responsesOf, List.filterMap_map]

/-- From `s` to `u` the symbols of the residues `rs` went out, and `n` responses, all of success. -/
structure Emits (s u : State) (rs : List Residue) (n : Nat) : Prop where
  symbols : symbolsOf u.out = symbolsOf s.out ++ rs.map toSymbol
  responses : ∃ ws, responsesOf u.out = responsesOf s.out ++ ws ∧ ws.length = n ∧ ∀ w ∈ ws, w.toNat / 2 ^ 28 = 0

section
variable {s t u : State} {rs rs' : List Residue}

theorem Emits.refl (s : State) : Emits s s [] 0 := ⟨by simp, [], by simp, rfl, nofun⟩

theorem Emits.trans {m n : Nat} (first : Emits s t rs m) (second : Emits t u rs' n) :
    Emits s u (rs ++ rs') (m + n) := by
  obtain ⟨symbols, ws, responses, length, codes⟩ := first
  obtain ⟨symbols', ws', responses', length', codes'⟩ := second
  exact ⟨by rw [symbols', symbols, List.map_append, List.append_assoc], ws ++ ws',
    by rw [responses', responses, List.append_assoc], by rw [List.length_append, length, length'],
    List.forall_mem_append.mpr ⟨codes, codes'⟩⟩

/-- The code of a response is its top field (spec/30_encoding.md R54). -/
theorem responseWord_success_code (d : Data) : (responseWord .success d).toNat / 2 ^ 28 = 0 := by
  have value : (responseWord .success d).toNat = ((0 : BitVec 12) ++ d).toNat := by
    rw [responseWord, toNat_concat]
    simp [ErrCode.bits]
  have below : ((0 : BitVec 12) ++ d).toNat < 2 ^ 28 := ((0 : BitVec 12) ++ d).isLt
  rw [value, Nat.div_eq_of_lt below]

theorem emits_of_out {d : Data} (out : u.out = s.out ++ rs.map (fun r => PortOut.symbol (toSymbol r)) ++
    [.response (responseWord .success d)]) : Emits s u rs 1 := by
  have symbols : rs.map (fun r => PortOut.symbol (toSymbol r)) = (rs.map toSymbol).map .symbol := by simp
  rw [symbols] at out
  refine ⟨?_, [responseWord .success d], ?_, rfl, List.forall_mem_singleton.mpr (responseWord_success_code d)⟩
  · rw [out, symbolsOf_append, symbolsOf_append, symbolsOf_symbols, symbolsOf_response, List.append_nil]
  · rw [out, responsesOf_append, responsesOf_append, responsesOf_symbols, responsesOf_response, List.append_nil]

theorem emits_succeed (out : u.out = s.out) (n : Nat) : Emits s (succeed n u) [] 1 :=
  emits_of_out (d := BitVec.ofNat 16 n) (by simp [out])

end

/-! ### Letters in an open session -/

/-- The letters of the block begun. -/
def held (s : State) : List Residue := (List.range s.cnt).map (Vec.get s.ib)

/-- What an open session sends for a block of letters (spec/42_hill_engine.md R105, R106). -/
def sessionBlock (s : State) (v : List Residue) : List Residue :=
  if s.mode = .enc then encblock s.kdim (Mat.get s.km) (Vec.get s.sv) (column v)
  else decblock s.kdim (Mat.get s.ki) (Vec.get s.ln) (column v)

/-- The letters `t`, taken in the open session `s`, complete the blocks `bs`; these are sent, what is left is held, and
only the block buffer, `ERR` and the streams change. -/
structure Took (s : State) (t : List Residue) (bs : List (List Residue)) (u : State) : Prop where
  frame : u = { s with ib := u.ib, cnt := u.cnt, err := u.err, cmd := u.cmd, out := u.out }
  inv : Inv u
  whole : ∀ b ∈ bs, b.length = s.kdim
  text : held s ++ t = bs.flatten ++ held u
  emits : Emits s u (bs.flatMap (sessionBlock s)) t.length

section
variable {s u v : State} {t t' : List Residue} {bs bs' : List (List Residue)}

@[simp] theorem length_held (s : State) : (held s).length = s.cnt := by simp [held]

@[simp] theorem length_sessionBlock (s : State) (v : List Residue) : (sessionBlock s v).length = s.kdim := by
  unfold sessionBlock
  split <;> simp

theorem length_flatMap_sessionBlock (s : State) (bs : List (List Residue)) :
    (bs.flatMap (sessionBlock s)).length = s.kdim * bs.length := by
  rw [List.flatMap_def, length_flatten_of_whole (List.forall_mem_map.mpr fun v _ => length_sessionBlock s v),
    List.length_map]

/-- `flush_block` sends the block that the buffer holds. -/
theorem blockOut_eq_sessionBlock (s : State) :
    blockOut s = sessionBlock s ((List.range s.kdim).map (Vec.get s.ib)) := by
  have letters : ∀ i < s.kdim, Vec.get s.ib i = column ((List.range s.kdim).map (Vec.get s.ib)) i :=
    fun i hi => (column_map_range _ hi).symm
  unfold blockOut sessionBlock
  split
  · exact encblock_congr _ (fun _ _ => rfl) letters
  · exact decblock_congr (fun _ _ _ _ => rfl) (fun _ _ => rfl) letters

theorem held_takeLetter (r : Residue) (s : State) (cell : s.cnt < 16) : held (takeLetter r s) = held s ++ [r] := by
  have before : ∀ i ∈ List.range s.cnt, Vec.get (Vec.set s.ib s.cnt r) i = Vec.get s.ib i := fun i hi =>
    Vec.get_set_of_ne _ _ (List.mem_range.mp hi).ne
  rw [held, takeLetter_cnt, takeLetter_ib, List.range_succ, List.map_append, List.map_congr_left before,
    List.map_singleton, Vec.get_set, if_pos ⟨rfl, cell⟩, held]

/-- The padded buffer holds the letters of the block begun and then the padding (spec/42_hill_engine.md R113). -/
theorem letters_padBlock (s : State) (cnt : s.cnt ≤ s.kdim) (kdim : s.kdim ≤ 16) :
    (List.range s.kdim).map (Vec.get (padBlock s).ib) = held s ++ List.replicate (s.kdim - s.cnt) padResidue := by
  have before : ∀ i ∈ List.range s.cnt, Vec.get (padBlock s).ib i = Vec.get s.ib i := fun i hi =>
    Vec.get_fill_of_not_mem _ _ (.inl (List.mem_range.mp hi))
  have after : ∀ i ∈ List.range (s.kdim - s.cnt), (Vec.get (padBlock s).ib ∘ (s.cnt + ·)) i = padResidue := by
    intro i hi
    have := List.mem_range.mp hi
    rw [Function.comp_apply, padBlock_ib, Vec.get_fill, if_pos (by omega)]
  conv_lhs => rw [← Nat.add_sub_cancel' cnt]
  rw [List.range_add, List.map_append, List.map_map, List.map_congr_left before, List.map_congr_left after,
    List.map_const', List.length_range, held]

theorem Took.refl (inv : Inv s) : Took s [] [] s := ⟨rfl, inv, nofun, by simp, .refl s⟩

theorem Took.sessionBlock_eq (took : Took s t bs u) : sessionBlock u = sessionBlock s := by
  rw [took.frame]
  rfl

theorem Took.kdim_eq (took : Took s t bs u) : u.kdim = s.kdim := by rw [took.frame]

theorem Took.mode_eq (took : Took s t bs u) : u.mode = s.mode := by rw [took.frame]

theorem Took.trans (first : Took s t bs u) (second : Took u t' bs' v) : Took s (t ++ t') (bs ++ bs') v := by
  refine ⟨?_, second.inv, ?_, ?_, ?_⟩
  · exact second.frame.trans (congrArg
      (fun x : State => { x with ib := v.ib, cnt := v.cnt, err := v.err, cmd := v.cmd, out := v.out }) first.frame)
  · exact List.forall_mem_append.mpr ⟨first.whole, first.kdim_eq ▸ second.whole⟩
  · rw [← List.append_assoc, first.text, List.append_assoc, second.text, List.flatten_append, List.append_assoc]
  · have sent := second.emits
    rw [first.sessionBlock_eq] at sent
    rw [List.flatMap_append, List.length_append]
    exact first.emits.trans sent

/-- The commands still queued play no part. -/
theorem Took.setCmd (took : Took s t bs u) (c : List HostMove) : Took s t bs { u with cmd := c } :=
  { took with
    frame := congrArg (fun x : State => { x with cmd := c }) took.frame
    inv := inv_of_streams took.inv _ _ _
    emits := ⟨took.emits.symbols, took.emits.responses⟩ }

theorem Took.of_setCmd {c : List HostMove} (took : Took { s with cmd := c } t bs u) : Took s t bs u :=
  ⟨took.frame, took.inv, took.whole, took.text, ⟨took.emits.symbols, took.emits.responses⟩⟩

/-- One letter: the block is full, and is sent, or it is not. -/
theorem exists_took_put (inv : Inv s) (session : s.mode ≠ .idle) (r : Residue) :
    ∃ u bs, Effect s (.put (0x61 + r.val)) u ∧ Took s [r] bs u := by
  have cell : s.cnt < 16 := inv.cntRange.trans_le (inv.kdimRange.2.trans (cap_le_of_inv inv))
  by_cases full : s.cnt + 1 = s.kdim
  · have effect := Effect.putFlushes _ r session (toResidue_letter r) full
    have block : blockOut (takeLetter r s) = sessionBlock s (held s ++ [r]) := by
      rw [blockOut_eq_sessionBlock, takeLetter_kdim, ← full, ← held_takeLetter r s cell]
      rfl
    refine ⟨_, [held s ++ [r]], effect, rfl, effect.inv inv, by simp [full], by simp [held],
      emits_of_out (d := BitVec.ofNat 16 s.kdim) ?_⟩
    rw [succeed_out, flushBlock_out, block, takeLetter_out, List.flatMap_singleton]
  · have effect := Effect.putTakes _ r session (toResidue_letter r) full
    exact ⟨_, [], effect, rfl, effect.inv inv, nofun, (held_takeLetter r s cell).symm,
      emits_succeed (takeLetter_out r s) 0⟩

/-- Any number of letters, and then the next command. -/
theorem exists_took {i : Instr} {is : List Instr} {rest : List HostMove} (inv : Inv s) (session : s.mode ≠ .idle)
    (move : s.cmd = asMoves (expandText (t.map fun r => 0x61 + r.val) ++ i :: is) ++ rest) (wf : i.wf = true) :
    ∃ u bs, Took s t bs u ∧ u.cmd = asMoves is ++ rest ∧
      ∀ v, Effect u i v → Host.Core.run Sys2Proof.core (t.length + 1) s = .next v := by
  induction t generalizing s with
  | nil => exact ⟨_, [], (Took.refl inv).setCmd (asMoves is ++ rest), rfl, fun v effect => run_cons move wf effect 0⟩
  | cons r t ih =>
    obtain ⟨u, bs, effect, took⟩ := exists_took_put (s := { s with
      cmd := asMoves (expandText (t.map fun r => 0x61 + r.val) ++ i :: is) ++ rest })
      (inv_of_streams inv _ _ _) session r
    have cmd : u.cmd = asMoves (expandText (t.map fun r => 0x61 + r.val) ++ i :: is) ++ rest := by
      obtain ⟨-, ⟨cmd, -⟩, -⟩ := effect.sends
      exact cmd
    have letterWf : (Instr.put (0x61 + r.val)).wf = true := decide_eq_true (by omega)
    obtain ⟨v, bs', took', cmd', run⟩ := ih took.inv (took.mode_eq ▸ session) cmd
    refine ⟨v, bs ++ bs', (took.trans took').of_setCmd, cmd', fun w last => ?_⟩
    rw [List.length_cons, run_cons move letterWf effect, run w last]

end

/-! ### The end of a session -/

section
variable {s u v : State}

/-- A block begun, if there is one, is padded and makes one more block. -/
theorem blocks_pad_held (cnt : s.cnt < s.kdim) : blocks s.kdim (pad s.kdim (held s)) =
    if s.cnt = 0 then [] else [held s ++ List.replicate (s.kdim - s.cnt) padResidue] := by
  have pos : 0 < s.kdim := by omega
  split
  · next empty => rw [held, empty, List.range_zero, List.map_nil, pad_nil, blocks_of_length_lt (by simpa using pos)]
  · next partBlock =>
    rw [pad_of_length_lt (by rw [length_held]; omega) (by rw [length_held]; exact cnt), length_held]
    have length : (held s ++ List.replicate (s.kdim - s.cnt) padResidue).length = s.kdim := by simp; omega
    simpa using blocks_flatten pos (List.forall_mem_singleton.mpr length)

/-- `END` in `ENC` sends the block begun, padded, and closes the session (spec/42_hill_engine.md R113). -/
theorem exists_end_of_enc (inv : Inv s) (enc : s.mode = .enc) : ∃ u, Effect s .endText u ∧
    u = { s with ib := u.ib, cnt := 0, mode := .idle, err := .success, out := u.out } ∧
    Emits s u ((blocks s.kdim (pad s.kdim (held s))).flatMap (sessionBlock s)) 1 := by
  have session : s.mode ≠ .idle := by simp [enc]
  rw [blocks_pad_held inv.cntRange]
  obtain empty | partBlock := Nat.eq_zero_or_pos s.cnt
  · refine ⟨_, .endCloses session empty, ?_, ?_⟩
    · rw [← empty]
      rfl
    · rw [if_pos empty, List.flatMap_nil]
      exact emits_of_out (d := 0) (by simp)
  · have fits : s.kdim ≤ 16 := inv.kdimRange.2.trans (cap_le_of_inv inv)
    have block : blockOut (padBlock s) = sessionBlock s (held s ++ List.replicate (s.kdim - s.cnt) padResidue) := by
      rw [blockOut_eq_sessionBlock, padBlock_kdim, letters_padBlock s inv.cntRange.le fits]
      rfl
    refine ⟨_, .endFlushes enc partBlock, rfl, emits_of_out (d := BitVec.ofNat 16 s.kdim) ?_⟩
    rw [if_neg partBlock.ne', List.flatMap_singleton, ← block]
    rfl

end

/-! ### Sessions -/

/-- The key, the shift and the two dimensions are in `u` as in `s`. -/
structure KeyKept (s u : State) : Prop where
  km : u.km = s.km
  sv : u.sv = s.sv
  kdim : u.kdim = s.kdim
  ldim : u.ldim = s.ldim

/-- The state once the command before the text `codes` is taken from the queue: the letters and `END` are next. -/
def State.beforeText (s : State) (codes : List Nat) (rest : List HostMove) : State :=
  { s with cmd := asMoves (expandText codes ++ [.endText]) ++ rest }

/-- From `s` a session was opened and has taken the letters `t`: `u` is its state before `END`, the blocks `bs` are
sent, and `rest` is what the host has queued after `END`. -/
structure Session (s : State) (t : List Residue) (rest : List HostMove) (bs : List (List Residue)) (u : State) :
    Prop where
  inv : Inv u
  cmd : u.cmd = rest
  kept : KeyKept s u
  whole : ∀ b ∈ bs, b.length = u.kdim
  text : t = bs.flatten ++ held u
  emits : Emits s u (bs.flatMap (sessionBlock u)) (t.length + 1)
  run : ∀ v, Effect u .endText v → Host.Core.run Sys2Proof.core (t.length + 2) s = .next v

section
variable {s t u v : State} {i : Instr} {rest : List HostMove} {bs : List (List Residue)}

theorem KeyKept.trans (first : KeyKept s t) (second : KeyKept t u) : KeyKept s u :=
  ⟨second.km.trans first.km, second.sv.trans first.sv, second.kdim.trans first.kdim, second.ldim.trans first.ldim⟩

theorem KeyKept.keyMatrix_eq (kept : KeyKept s u) : keyMatrix u = keyMatrix s := by rw [keyMatrix, kept.km, keyMatrix]

theorem KeyKept.shiftVector_eq (kept : KeyKept s u) : shiftVector u = shiftVector s := by
  rw [shiftVector, kept.sv, kept.ldim, shiftVector]

theorem Effect.keyKept_of_opening {codes : List Nat} (effect : Effect (s.beforeText codes rest) i t)
    (hi : i = .encb ∨ i = .decb) : KeyKept s t := by
  have commands : i = .encb ∨ i = .decb ∨ (∃ c, i = .put c) ∨ i = .endText := hi.imp_right .inl
  obtain ⟨-, km, sv, kdim, ldim, -⟩ := sessionFrame i _ t commands effect.exec_eq
  exact ⟨km, sv, kdim, ldim⟩

theorem Took.keyKept {text : List Residue} (took : Took s text bs u) : KeyKept s u := by
  rw [took.frame]
  exact ⟨rfl, rfl, rfl, rfl⟩

/-- A command that opens a session, followed by letters. -/
theorem exists_session {text : List Residue} (inv : Inv s) (hi : i = .encb ∨ i = .decb)
    (move : s.cmd = asMoves (i :: (expandText (text.map fun r => 0x61 + r.val) ++ [.endText])) ++ rest)
    (opens : Effect (s.beforeText (text.map fun r => 0x61 + r.val) rest) i t)
    (session : t.mode ≠ .idle) (empty : t.cnt = 0) (answer : Emits s t [] 1) :
    ∃ u bs, Session s text rest bs u ∧ u.mode = t.mode := by
  have wf : i.wf = true := by obtain rfl | rfl := hi <;> rfl
  obtain ⟨-, ⟨cmd, -⟩, -⟩ := opens.sends
  obtain ⟨u, bs, took, cmdU, run⟩ := exists_took (opens.inv (inv_of_streams inv _ _ _)) session cmd rfl
  have kept := (opens.keyKept_of_opening hi).trans took.keyKept
  refine ⟨u, bs, ⟨took.inv, cmdU, kept, took.kdim_eq ▸ took.whole, ?_, ?_, fun v ends => ?_⟩, took.mode_eq⟩
  · simpa [held, empty] using took.text
  · rw [took.sessionBlock_eq, Nat.add_comm]
    exact answer.trans took.emits
  · rw [run_cons move wf opens, run v ends]

/-- A command that opens no session, followed by a text. -/
theorem run_not_opened {codes : List Nat} {w : RspWord} (hi : i = .encb ∨ i = .decb) (fits : ∀ c ∈ codes, c < 65536)
    (move : s.cmd = asMoves (i :: (expandText codes ++ [.endText])) ++ rest)
    (effect : Effect (s.beforeText codes rest) i t) (idle : t.mode = .idle)
    (out : t.out = s.out ++ [.response w]) :
    Host.Core.run Sys2Proof.core (codes.length + 2) s = .next { t with
      cmd := rest, err := .illegalCommand,
      out := s.out ++ .response w :: List.replicate (codes.length + 1) (.response 0x50000000) } := by
  have wf : i.wf = true := by obtain rfl | rfl := hi <;> rfl
  obtain ⟨-, ⟨cmd, -⟩, -⟩ := effect.sends
  rw [run_cons move wf effect, run_refused_text idle fits cmd, out, List.append_assoc, List.singleton_append]

theorem Session.pos {text : List Residue} (session : Session s text rest bs u) : 0 < u.kdim := session.inv.kdimRange.1

/-- The padded text is cut into the blocks sent and the one begun, padded. -/
theorem Session.blocks_pad {text : List Residue} (session : Session s text rest bs u) :
    blocks u.kdim (pad u.kdim text) = bs ++ blocks u.kdim (pad u.kdim (held u)) := by
  conv_lhs => rw [session.text, pad_flatten_append session.whole, blocks_flatten_append session.pos session.whole]

theorem Session.length_mod {text : List Residue} (session : Session s text rest bs u) :
    text.length % u.kdim = u.cnt := by
  conv_lhs => rw [session.text, List.length_append, length_flatten_of_whole session.whole, length_held, Nat.mul_add_mod,
    Nat.mod_eq_of_lt session.inv.cntRange]

theorem Session.blocks_eq {text : List Residue} (session : Session s text rest bs u) (empty : u.cnt = 0) :
    blocks u.kdim text = bs := by
  have text : text = bs.flatten := by simpa [held, empty] using session.text
  rw [text, blocks_flatten session.pos session.whole]

end

/-! ### Encrypt sessions -/

section
variable {s : State}

/-- An open encrypt session sends encrypted blocks (spec/42_hill_engine.md R103, R105). -/
theorem sessionBlock_of_enc (enc : s.mode = .enc) (dims : s.ldim = s.kdim) :
    sessionBlock s = fun v => encblock s.kdim (Mat.get s.km) (column (shiftVector s)) (column v) := by
  funext v
  rw [sessionBlock, if_pos enc]
  exact encblock_congr _ (fun i hi => (column_shiftVector s (dims ▸ hi)).symm) fun _ _ => rfl

theorem length_encryption {k : Nat} (pos : 0 < k) (K : Nat → Nat → Residue) (L t : List Residue) :
    ((blocks k (pad k t)).flatMap fun v => encblock k K (column L) (column v)).length =
      k * ((t.length + k - 1) / k) := by
  rw [length_encrypted, blocks, List.length_map, List.length_range, length_pad pos, Nat.mul_div_cancel_left _ pos]

theorem exists_session_of_enc {t : List Residue} {rest : List HostMove} (inv : Inv s) (idle : s.mode = .idle)
    (dims : s.ldim = s.kdim) (move : s.cmd = asMoves (expandEncrypt (t.map fun r => 0x61 + r.val)) ++ rest) :
    ∃ u bs, Session s t rest bs u ∧ u.mode = .enc := by
  have opens := Effect.encbOpens (s := s.beforeText (t.map fun r => 0x61 + r.val) rest) idle dims
  exact exists_session inv (.inl rfl) move opens nofun rfl (emits_succeed (by rfl) s.kdim)

end

/-- Settles O55: the letters complete blocks (`exists_session_of_enc`), `END` pads the one begun
(`exists_end_of_enc`). -/
theorem encryptSessionComputesEncrypt : Obligations.EncryptSessionComputesEncrypt := by
  intro s t rest inv idle dims move
  obtain ⟨u, bs, session, enc⟩ := exists_session_of_enc inv idle dims move
  obtain ⟨v, ends, frame, sent⟩ := exists_end_of_enc session.inv enc
  obtain ⟨km, sv, kdim, ldim⟩ := session.kept
  have emits := session.emits.trans sent
  rw [← List.flatMap_append, ← session.blocks_pad, sessionBlock_of_enc enc (by rw [ldim, kdim, dims]),
    session.kept.shiftVector_eq, km, kdim] at emits
  have length := length_encryption (k := s.kdim) inv.kdimRange.1 (Mat.get s.km) (shiftVector s) t
  refine ⟨v, _, session.run v ends, encrypt_of_length _ ((shiftVector_length s).trans dims) t, emits.symbols, length,
    emits.responses, ?_⟩
  rw [frame]
  exact ⟨rfl, rfl, rfl, session.cmd, km, sv, kdim, ldim⟩

/-! ### Decrypt sessions -/

section
variable {s : State}

/-- An open decrypt session sends blocks decrypted with the inverse of the key (spec/42_hill_engine.md R103, R106): the
invariant says what `KI` and `LN` hold. -/
theorem sessionBlock_of_dec (inv : Inv s) (dec : s.mode = .dec) :
    sessionBlock s = fun c => decblock s.kdim (inverseEntry s.kdim (keyMatrix s))
      (transformedShift s.kdim (inverseEntry s.kdim (keyMatrix s)) (column (shiftVector s))) (column c) := by
  have session : s.mode ≠ .idle := by simp [dec]
  have kiv := inv.decInverse dec
  obtain ⟨detv, -, dinv⟩ := inv.kivFlags kiv
  obtain ⟨det, -⟩ := inv.detCurrent detv
  have ki : ∀ i < s.kdim, ∀ j < s.kdim, Mat.get s.ki i j = inverseEntry s.kdim (keyMatrix s) i j := fun i hi j hj => by
    rw [inv.kiCurrent kiv i hi j hj, dinv, det, inverseEntry]
  have sv : ∀ j < s.kdim, Vec.get s.sv j = column (shiftVector s) j := fun j hj =>
    (column_shiftVector s (inv.sessionDims session ▸ hj)).symm
  funext c
  rw [sessionBlock, if_neg (by simp [dec])]
  refine decblock_congr ki (fun i hi => ?_) fun _ _ => rfl
  rw [inv.decShift dec i hi]
  exact transformedShift_congr ki sv hi

theorem exists_session_of_dec {t : List Residue} {rest : List HostMove} (inv : Inv s) (idle : s.mode = .idle)
    (unit : isUnit26 (keyDet s) = true) (dims : s.ldim = s.kdim)
    (move : s.cmd = asMoves (expandDecrypt (t.map fun r => 0x61 + r.val)) ++ rest) :
    ∃ u bs, Session s t rest bs u ∧ u.mode = .dec := by
  have opens := Effect.decbOpens (s := s.beforeText (t.map fun r => 0x61 + r.val) rest) idle unit dims
  exact exists_session inv (.inr rfl) move opens nofun rfl (emits_succeed (by rw [storeShift_out, computeInverse_out]; rfl) s.kdim)

/-- A decrypt session that does not open. -/
theorem exists_run_of_decb {codes : List Nat} {rest : List HostMove} {e : ErrCode} {w : RspWord} (inv : Inv s)
    (idle : s.mode = .idle) (word : responseWord e 0#16 = w) (fits : ∀ c ∈ codes, c < 65536)
    (move : s.cmd = asMoves (expandDecrypt codes) ++ rest)
    (fails : Effect (s.beforeText codes rest) .decb (raise e (computeInverse (s.beforeText codes rest)))) :
    ∃ u, Host.Core.run Sys2Proof.core (codes.length + 2) s = .next u ∧ u.mode = .idle ∧ u.cnt = 0 ∧ u.cmd = rest ∧
      KeyKept s u ∧ u.out = s.out ++ .response w :: List.replicate (codes.length + 1) (.response 0x50000000) := by
  subst word
  obtain ⟨km, sv, kdim, ldim⟩ := fails.keyKept_of_opening (.inr rfl)
  have mode : (raise e (computeInverse (s.beforeText codes rest))).mode = .idle :=
    (computeInverse_mode _).trans idle
  have cnt : (raise e (computeInverse (s.beforeText codes rest))).cnt = 0 :=
    (computeInverse_cnt _).trans (inv.cntIdle idle)
  have out : (raise e (computeInverse (s.beforeText codes rest))).out = s.out ++ [.response (responseWord e 0)] := by
    rw [raise_out, computeInverse_out]
    rfl
  exact ⟨_, run_not_opened (.inr rfl) fits move fails mode out, mode, cnt, rfl, ⟨km, sv, kdim, ldim⟩, rfl⟩

end

/-- `decrypt` of the letters an open decrypt session has taken: what it has sent, if it holds no part of a block. -/
theorem Session.decrypt_eq {s u : State} {t : List Residue} {rest : List HostMove} {bs : List (List Residue)}
    (session : Session s t rest bs u) (dec : u.mode = .dec) (unit : isUnit26 (keyDet s) = true)
    (dims : s.ldim = s.kdim) :
    decrypt s.kdim (Mat.get s.km) (shiftVector s) t =
      if u.cnt = 0 then .ok (bs.flatMap (sessionBlock u)) else .error .dimensionMismatch := by
  rw [decrypt_of_invertible (K := Mat.get s.km) unit, shiftVector_length, if_neg (not_not.mpr dims),
    ← session.kept.kdim, session.length_mod, ite_not]
  split
  · next empty =>
    rw [session.blocks_eq empty, sessionBlock_of_dec session.inv dec, session.kept.keyMatrix_eq,
      session.kept.shiftVector_eq]
    rfl
  · rfl

/-- Settles O56: `exists_run_of_decb` for a key without an inverse; otherwise `Session.decrypt_eq` says what was sent,
and `END` finds part of a block or none. -/
theorem decryptSessionComputesDecrypt : Obligations.DecryptSessionComputesDecrypt := by
  intro s t rest inv idle dims move
  cases unit : isUnit26 (keyDet s) with
  | false =>
    have fits : ∀ c ∈ t.map (fun r => 0x61 + r.val), c < 65536 := List.forall_mem_map.mpr fun r _ => by omega
    obtain ⟨u, run, mode, cnt, cmd, ⟨km, sv, kdim, ldim⟩, out⟩ :=
      exists_run_of_decb inv idle responseWord_notInvertible fits move (.decbFails idle unit)
    rw [List.length_map] at run out
    rw [← List.map_replicate, ← List.map_cons] at out
    rw [decrypt_of_not_invertible (K := Mat.get s.km) unit]
    refine ⟨u, run, mode, cnt, cmd, km, sv, kdim, ldim, fun _ => ⟨?_, ?_⟩, nofun, nofun⟩
    · rw [out, symbolsOf_append, symbolsOf_responses, List.append_nil]
    · rw [out, responsesOf_append, responsesOf_responses]
      rfl
  | true =>
    obtain ⟨u, bs, session, dec⟩ := exists_session_of_dec inv idle unit dims move
    obtain ⟨km, sv, kdim, ldim⟩ := session.kept
    rw [session.decrypt_eq dec unit dims]
    obtain empty | partBlock := Nat.eq_zero_or_pos u.cnt
    · rw [if_pos empty]
      refine ⟨_, session.run _ (.endCloses (by simp [dec]) empty), rfl, empty, session.cmd, km, sv, kdim, ldim, nofun,
        nofun, ?_⟩
      rintro _ ⟨⟩
      refine ⟨?_, rfl, ?_⟩
      · rw [succeed_out, symbolsOf_append, symbolsOf_response, List.append_nil]
        exact session.emits.symbols
      · rw [succeed_out, responsesOf_append, responsesOf_response, List.getLast?_concat]
        rfl
    · rw [if_neg partBlock.ne']
      refine ⟨_, session.run _ (.endMismatch dec partBlock), rfl, rfl, session.cmd, km, sv, kdim, ldim, nofun,
        fun _ => ⟨rfl, ?_⟩, nofun⟩
      rw [raiseInSession_out, responsesOf_append, responsesOf_response, List.getLast?_concat]
      rfl

/-! ### Sessions that end early or do not open -/

/-- Settles O57: the good letters complete blocks (`exists_took`), the bad one drops what is held, and the rest is
refused (`run_refused_text`). -/
theorem firstBadLetterEndsTheSession : Obligations.FirstBadLetterEndsTheSession := by
  intro s good c more rest inv session noLetter fits moreFit move
  have move' : s.cmd = asMoves (expandText (good.map fun r => 0x61 + r.val) ++
      .put c :: (expandText more ++ [.endText])) ++ rest := by
    rw [move, List.append_assoc, List.cons_append]
  obtain ⟨u, bs, took, cmd, run⟩ := exists_took inv session move' (decide_eq_true fits)
  obtain ⟨km, sv, kdim, ldim⟩ := took.keyKept
  have bad := Effect.putBad c (took.mode_eq ▸ session) (toResidue_of_not_letter noLetter)
  have count : s.cnt + good.length = s.kdim * bs.length + u.cnt := by
    have lengths := congrArg List.length took.text
    simpa [length_flatten_of_whole took.whole] using lengths
  have below : u.cnt < s.kdim := kdim ▸ took.inv.cntRange
  refine ⟨_, _, run _ bad, rfl, rfl, rfl, ?_, ?_, run_refused_text rfl moreFit cmd, rfl, km, sv, kdim, ldim⟩
  · rw [raiseInSession_out, responsesOf_append, responsesOf_response, List.getLast?_concat]
    rfl
  · have blocks : (s.cnt + good.length) / s.kdim = bs.length := by
      rw [count, Nat.mul_add_div (by omega), Nat.div_eq_of_lt below, Nat.add_zero]
    rw [raiseInSession_out, symbolsOf_append, symbolsOf_response, List.append_nil, took.emits.symbols,
      List.length_append, List.length_map, length_flatMap_sessionBlock, blocks]

/-- Settles O58: neither `ENCB` nor `DECB` opens a session, so `run_not_opened` and `exists_run_of_decb` apply. -/
theorem mismatchedDimensionsOpenNoSession : Obligations.MismatchedDimensionsOpenNoSession := by
  intro s codes rest inv idle dims fits
  have length : (shiftVector s).length ≠ s.kdim := by rwa [shiftVector_length]
  refine ⟨fun t => ⟨encrypt_of_ne _ length t, ?_⟩, fun move => ?_, fun move => ?_⟩
  · cases unit : isInvertibleMod26 s.kdim (keyMatrix s) with
    | false => exact decrypt_of_not_invertible (K := Mat.get s.km) unit _ _
    | true => exact (decrypt_of_invertible (K := Mat.get s.km) unit _ _).trans (if_pos length)
  · have fails := Effect.encbMismatch (s := s.beforeText codes rest) idle dims
    rw [raise_dimensionMismatch] at fails
    have run := run_not_opened (.inl rfl) fits move fails idle rfl
    exact run
  · cases unit : isInvertibleMod26 s.kdim (keyMatrix s) with
    | false =>
      obtain ⟨u, run, mode, cnt, -, ⟨km, sv, kdim, ldim⟩, out⟩ :=
        exists_run_of_decb inv idle responseWord_notInvertible fits move (.decbFails idle unit)
      exact ⟨u, run, mode, cnt, km, sv, kdim, ldim, out⟩
    | true =>
      obtain ⟨u, run, mode, cnt, -, ⟨km, sv, kdim, ldim⟩, out⟩ :=
        exists_run_of_decb inv idle responseWord_dimensionMismatch fits move (.decbMismatch idle unit dims)
      exact ⟨u, run, mode, cnt, km, sv, kdim, ldim, out⟩

/-! ### Both sessions -/

/-- Settles O59: `encryptSessionComputesEncrypt`, then `decryptSessionComputesDecrypt` on what was sent, which
`decryptUndoesEncrypt` gives the padded text of. -/
theorem sessionsRoundTrip : Obligations.SessionsRoundTrip := by
  intro s t c rest inv idle dims invertible encrypted move
  rw [asMoves, List.map_append, List.append_assoc] at move
  obtain ⟨u, c', run, encrypted', symbols, -, -, idleU, -, -, cmd, km, sv, kdim, ldim⟩ :=
    encryptSessionComputesEncrypt s t _ inv idle dims move
  obtain rfl : c' = c := Except.ok.inj (encrypted'.symm.trans encrypted)
  obtain ⟨v, run', idleV, -, cmdV, -, -, -, -, -, -, decrypted⟩ :=
    decryptSessionComputesDecrypt u c' rest (inv_run run inv) idleU (by rw [ldim, kdim, dims]) cmd
  obtain ⟨roundTrip, -⟩ := decryptUndoesEncrypt s.kdim (Mat.get s.km) (shiftVector s) t inv.kdimRange.1 invertible
  obtain ⟨c, encrypted'', back⟩ := roundTrip ((shiftVector_length s).trans dims)
  obtain rfl : c = c' := Except.ok.inj (encrypted''.symm.trans encrypted)
  have kept : KeyKept s u := ⟨km, sv, kdim, ldim⟩
  rw [← km, ← kdim, ← kept.shiftVector_eq] at back
  obtain ⟨symbols', err, -⟩ := decrypted _ back
  exact ⟨u, v, run, symbols, run', kdim ▸ symbols', err, idleV, cmdV⟩

end Sys2Proof.Machine
end

section
/-! PROOF. The statements about spec/43_register_read.md: when `RD` is legal, what it answers (R130, R131), and that it
changes no state. -/

namespace Sys2Proof.Machine

/-! ### One read -/

section
variable {reg row col : Nat} {s : State}

/-- All that an illegal read does: `ERR` is not written either (spec/43_register_read.md R130). -/
theorem exec_rd_illegal (illegal : readReg reg row col s = none) :
    exec (.rd reg row col) s = .next { s with out := s.out ++ [.response 0x50000000] } := by
  have bad : operandsLegal s (.rd reg row col) = false := congrArg Option.isSome illegal
  exact (exec_refused (.inr bad)).trans (congrArg _ (refuse_rd s))

/-- A read of a register of the map, by its legal-when condition and its value as a number. -/
theorem exec_rd_of_regName {r : RegName} {p : Prop} [Decidable p] {n : Nat} (name : regName reg = some r)
    (legal : readable r row col s = true ↔ p) (value : regValue r row col s = BitVec.ofNat 16 n) (fits : n < 65536) :
    exec (.rd reg row col) s = if p then .next { s with out := s.out ++ [.response (BitVec.ofNat 32 n)] }
      else .next { s with out := s.out ++ [.response 0x50000000] } := by
  split
  · next holds =>
    have read : readReg reg row col s = some (BitVec.ofNat 16 n) := by simp [readReg, name, legal.mpr holds, value]
    rw [← responseWord_success n fits]
    exact (Effect.rd reg row col _ read).exec_eq
  · next fails => exact exec_rd_illegal (by simp [readReg, name, mt legal.mp fails])

/-- "Numbers not listed are illegal" (spec/43_register_read.md R131). -/
theorem regName_eq_none (unlisted : reg ∉
    [0x0000, 0x0001, 0x0002, 0x0003, 0x0004, 0x0005, 0x0010, 0x0011, 0x0012, 0x0013]) : regName reg = none := by
  unfold regName
  split
  case h_11 => rfl
  all_goals exact absurd (by decide) unlisted

/-- The scalars that are always readable answer to the indices 0, 0 only. -/
theorem readable_scalar_iff : (row == 0 && col == 0) = true ↔ row = 0 ∧ col = 0 := by simp

/-- The value of `SR` is the sum of its fields (spec/10_state.md R23). -/
theorem statusReg_eq_ofNat (cntFits : s.cnt < 16) :
    statusReg s = BitVec.ofNat 16 (s.mode.bits.toNat + 4 * s.detv.toNat + 8 * s.unit.toNat + 16 * s.kiv.toNat +
      256 * s.cnt + 4096 * s.err.bits.toNat) := by
  rw [← toNat_statusReg cntFits, BitVec.ofNat_toNat, BitVec.setWidth_eq]

end

/-! ### The statements -/

/-- Settles O29: a legal read answers the value, an illegal one is refused without writing `ERR`. -/
theorem readFrame : Obligations.ReadFrame := by
  intro reg row col s
  cases read : readReg reg row col s with
  | none => exact ⟨_, exec_rd_illegal read⟩
  | some v => exact ⟨_, (Effect.rd reg row col v read).exec_eq⟩

/-- Settles O24: `exec_rd_of_regName` for each row of the map, `regName_eq_none` for every other number. -/
theorem rdResult : Obligations.RdResult := by
  rintro reg row col s _ _ hcap hkdim hldim hcnt rfl rfl
  have residueFits (r : Residue) : r.val < 65536 := by omega
  have statusFits := toNat_statusReg hcnt ▸ (statusReg s).isLt
  refine ⟨?sr, ?kdim, ?ldim, ?det, ?dinv, ?cap, ?km, ?sv, ?ki, ?ln,
    fun unlisted => exec_rd_illegal (by rw [readReg, regName_eq_none unlisted]), fun hreg hrow hcol => ?word⟩
  case word =>
    obtain ⟨-, -, word, -⟩ := encodedWordsAreTheTablesSums
    have wf : (Instr.rd reg row col).wf = true := by simp [Instr.wf, fitsUnsigned, fitsIndex, hreg, hrow, hcol]
    exact decode_of_encode_eq (word reg row col hreg hrow hcol) wf
  all_goals rintro rfl
  case sr => exact exec_rd_of_regName rfl readable_scalar_iff (statusReg_eq_ofNat hcnt) statusFits
  case kdim => exact exec_rd_of_regName rfl readable_scalar_iff rfl (by omega)
  case ldim => exact exec_rd_of_regName rfl readable_scalar_iff rfl (by omega)
  case det => exact exec_rd_of_regName rfl (by simp [readable, and_assoc]) rfl (residueFits _)
  case dinv => exact exec_rd_of_regName rfl (by simp [readable, and_assoc]) rfl (residueFits _)
  case cap => exact exec_rd_of_regName rfl readable_scalar_iff rfl (by omega)
  case km => exact exec_rd_of_regName rfl (by simp [readable]) rfl (residueFits _)
  case sv => exact exec_rd_of_regName rfl (by simp [readable]) rfl (residueFits _)
  case ki => exact exec_rd_of_regName rfl (by simp [readable, and_assoc]) rfl (residueFits _)
  case ln => exact exec_rd_of_regName rfl (by simp [readable, and_assoc]) rfl (residueFits _)

end Sys2Proof.Machine
end

section
/-! PROOF. The statement about spec/60_exceptions.md: which command is accepted in which mode (R147). -/

namespace Sys2Proof.Machine

/-- An accepted command with legal operands answers once, with a code that is not that of a refusal: `RD` answers
success, every other command the code it leaves in `ERR`, which only a refusal sets to 5 (spec/60_exceptions.md R140,
R144, R146). -/
theorem Effect.sends_of_accepted {s t : State} {i : Instr} (effect : Effect s i t) (acc : acceptedIn s.mode i = true)
    (legal : operandsLegal s i = true) : ∃ e, Sends s t e ∧ e ≠ .illegalCommand := by
  obtain ⟨e, sent, err⟩ := effect.sends
  cases effect with
  | refused _ bad => simp [acc, legal] at bad
  | rd reg row col v _ => exact ⟨.success, ⟨rfl, [], v, rfl, .inl rfl⟩, nofun⟩
  | _ =>
    obtain rfl := err nofun
    exact ⟨_, sent, nofun⟩

/-- Settles O31: `Effect.of_not_accepted` for a command the mode does not accept, `Effect.sends_of_accepted` for one it
accepts. -/
theorem commandsAcceptedByMode : Obligations.CommandsAcceptedByMode := by
  intro i s
  refine ⟨fun notAccepted => (Effect.of_not_accepted notAccepted).exec_eq, fun acc legal => ?_⟩
  obtain ⟨t, effect⟩ := exists_effect_of_accepted acc legal
  obtain ⟨e, ⟨-, syms, d, out, -⟩, notRefused⟩ := effect.sends_of_accepted acc legal
  exact ⟨t, s.out ++ syms.map .symbol, e, d, effect.exec_eq, by rw [out, List.append_assoc], notRefused⟩

end Sys2Proof.Machine
end

section
/-! PROOF. The statements about spec/70_reset_and_hazards.md: reset between two commands (R170), the key during a
session (R173) and the end of a run (R181). -/

namespace Sys2Proof.Machine

/-! ### Reset -/

/-- Settles O13: the step is `applyReset`, which gives every register its reset value whatever it held. -/
theorem resetMoveRestoresResetState : Obligations.ResetMoveRestoresResetState := fun _ _ => step_of_rst

/-! ### The key during a session -/

theorem keyKept_refuse (op : BitVec 8) (s : State) : KeyKept s (refuse op s) :=
  ⟨refuse_km op s, refuse_sv op s, refuse_kdim op s, refuse_ldim op s⟩

/-- In a session only `PUT`, `END` and `RD` are not refused (spec/60_exceptions.md R147), and none of the three writes
the key, the shift or a dimension. -/
theorem Effect.keyKept_of_session {s t : State} {i : Instr} (effect : Effect s i t) (session : s.mode ≠ .idle) :
    KeyKept s t := by
  cases effect with
  | refused _ _ => exact keyKept_refuse _ s
  | putBad | putFlushes | putTakes | endFlushes | endMismatch | endCloses | rd => exact ⟨rfl, rfl, rfl, rfl⟩
  | _ => exact absurd ‹_› session

/-- Settles O41: `Effect.keyKept_of_session` for a word that decodes, its two special cases by `exec_keyLoad_refused`
and `Effect.mode_of_end`; the refusal for a word that does not. -/
theorem keyIsFixedDuringASession : Obligations.KeyIsFixedDuringASession := by
  intro s w rest move session
  cases decoded : decode w with
  | error r =>
    obtain ⟨km, sv, kdim, ldim⟩ := keyKept_refuse (opField w) { s with cmd := rest }
    exact ⟨_, step_of_undecodable move (by simp [decoded]), km, sv, kdim, ldim, nofun, nofun⟩
  | ok i =>
    obtain ⟨t, effect⟩ := exists_effect { s with cmd := rest } i
    obtain ⟨km, sv, kdim, ldim⟩ := effect.keyKept_of_session session
    refine ⟨t, (step_of_decode move decoded).trans effect.exec_eq, km, sv, kdim, ldim, ?_, ?_⟩
    · rintro _ ⟨⟩ load
      have refused := exec_keyLoad_refused (s := { s with cmd := rest }) load fun accepted => session accepted.1
      exact Host.Outcome.next.inj (effect.exec_eq.symm.trans refused)
    · rintro ⟨⟩
      exact effect.mode_of_end

/-! ### The end of a run -/

theorem wordCount_cons (m : HostMove) (ms : List HostMove) : wordCount (m :: ms) = wordCount [m] + wordCount ms := by
  cases m with
  | word w => simp [wordCount, Nat.add_comm]
  | rst => simp [wordCount]

/-- One step consumes the oldest move: a word is answered once (`eachWordGetsOneResponse`), a reset sends nothing. -/
theorem exists_step_of_cons {s : State} {m : HostMove} {rest : List HostMove} (move : s.cmd = m :: rest) :
    ∃ t, step s = .next t ∧ t.cmd = rest ∧
      (responsesOf t.out).length = (responsesOf s.out).length + wordCount [m] ∧ s.out <+: t.out := by
  cases m with
  | rst => exact ⟨_, step_of_rst move, rfl, rfl, List.prefix_rfl⟩
  | word w =>
    obtain ⟨t, syms, r, next, cmd, out, -⟩ := eachWordGetsOneResponse s w rest move
    refine ⟨t, next, cmd, ?_, out ▸ List.prefix_append _ _⟩
    rw [out, responsesOf_append, responsesOf_append, responsesOf_symbols, responsesOf_response]
    exact List.length_append

/-- Settles O11, by induction on the queued moves: `exists_step_of_cons` for the first of them. -/
theorem runConsumesEveryMove : Obligations.RunConsumesEveryMove := by
  intro s
  induction move : s.cmd generalizing s with
  | nil => exact ⟨s, rfl, move, rfl, List.prefix_rfl⟩
  | cons m rest ih =>
    obtain ⟨t, next, cmd, responses, sent⟩ := exists_step_of_cons move
    obtain ⟨u, run, consumed, responses', sent'⟩ := ih t cmd
    refine ⟨u, (run_succ next _).trans run, consumed, ?_, sent.trans sent'⟩
    rw [responses', responses, wordCount_cons m rest, Nat.add_assoc]

end Sys2Proof.Machine
end
